-- ==== Sys2Proof/Word.lean ====
section
/-! DEFINITION. The widths of the quantities of the block (spec/00_scope.md R6, R8): bytes, 16-bit counters and
the 11-bit packed port transactions of 30_encoding.md R84 and R94. Addresses are unbounded naturals (R7). -/

namespace Sys2Proof

/-- An unsigned 8-bit value (00_scope.md R8). -/
abbrev Byte := BitVec 8

/-- An unsigned 16-bit value, the width of `counter` and `count_latch` (00_scope.md R8). -/
abbrev Word16 := BitVec 16

/-- The packed port transaction, PTW or PPW (30_encoding.md R84, R94). -/
abbrev PortWord := BitVec 11

end Sys2Proof
end

