-- ==== Sys2Proof/Config.lean ====
section
/-! DEFINITION. What an implementation fixes (spec/00_scope.md R6) and the free values: the parameters are one record,
which the state carries unchanged so that every claim holds for every value of them (notes/assumptions/5.md);
the draws of the spec (93_implementation_defined.md items 10 to 12) are constants with no body. -/

namespace Sys2Proof

/-- `NONZERO_MODE_POLICY` (00_scope.md R6; 44_pit_counting.md R206, R207). -/
inductive NonzeroModePolicy where
  /-- The default: a nonzero operating mode is stored and never changes `running` (R206). -/
  | placeholder
  /-- A mode word with a nonzero operating mode is refused (R207). -/
  | refuse
deriving DecidableEq, Repr

/-- The parameters the model takes as arguments (00_scope.md R6). `TICK_PERIOD`, `DEVICE_MAP` and `ROM_BYTES` are operands of
the construction operations and stand in `Machine.BootConfig`; `RAM_INIT`, `KEYBOARD` and the three status inputs are the
draws below. -/
structure Params where
  /-- `PIT_BASE`. -/
  pitBase : Nat
  /-- `PPI_BASE`. -/
  ppiBase : Nat
  /-- `PPI_CONFIG_BYTE`. -/
  ppiConfigByte : Byte
  /-- `PPI_SW1`. -/
  ppiSw1 : Byte
  /-- `PPI_SW2`. -/
  ppiSw2 : Byte
  /-- `PPI_PORT2_BITS`: the position of cassette-data. -/
  cassetteBit : Fin 8
  /-- `PPI_PORT2_BITS`: the position of timer-channel-2 output. -/
  timerBit : Fin 8
  /-- `PPI_PORT2_BITS`: the position of IO-check. -/
  ioCheckBit : Fin 8
  /-- `PPI_PORT2_BITS`: the position of RAM-check. -/
  ramCheckBit : Fin 8
  /-- `PPI_PORT0_SWITCH_WHEN`: the value of port-1 bit 7 that selects the switches on port 0. -/
  port0SwitchWhen : Bool
  /-- `PPI_PORT1_INIT`. -/
  port1Init : Byte
  /-- `NONZERO_MODE_POLICY`. -/
  policy : NonzeroModePolicy
deriving DecidableEq, Repr

/-- The one record of the parameters that `State.reset` takes. DESIGN CHOICE (notes/assumptions/5.md): the example
values of 95_test_vectors.md, which are not source values; the policy is the spec's default. -/
def Config.exampleParams : Params where
  pitBase := 0x9000
  ppiBase := 0xA000
  ppiConfigByte := 0x99
  ppiSw1 := 0x4D
  ppiSw2 := 0x03
  cassetteBit := 4
  timerBit := 5
  ioCheckBit := 6
  ramCheckBit := 7
  port0SwitchWhen := true
  port1Init := 0x00
  policy := .placeholder

/-- `RAM_INIT(d)(i)`: what byte `i` of the `d`-th constructed RAM device holds before it is written. A free value
(10_state.md R29, 92_eei_decisions.md D16; notes/assumptions/6.md). -/
opaque Config.ramInit : Nat → Nat → Byte

/-- What the keyboard collaborator's `get()` answers at draw `n`. A free value
(45_peripheral_interface.md R230; notes/assumptions/7.md). -/
opaque Config.keyboardGet : Nat → Byte

/-- `PPI_CASSETTE_IN` at draw `n`. A free value (45_peripheral_interface.md R225, D34; notes/assumptions/7.md). -/
opaque Config.cassetteIn : Nat → Bool

/-- `PPI_IOCHECK` at draw `n`. A free value (45_peripheral_interface.md R225, D34; notes/assumptions/7.md). -/
opaque Config.ioCheck : Nat → Bool

/-- `PPI_RAMCHECK` at draw `n`. A free value (45_peripheral_interface.md R225, D34; notes/assumptions/7.md). -/
opaque Config.ramCheck : Nat → Bool

end Sys2Proof
end

