-- ==== Sys2Proof/Syntax.lean ====
section
/-! DEFINITION. The operations of the block: one constructor of `Instr` per row of spec/opcode_table.json, in the
table's order, and the operand types they carry. -/

namespace Sys2Proof

/-- A PIT channel, one of three values (44_pit_counting.md R205: no other index can be expressed). -/
inductive Chan where
  | ch0 | ch1 | ch2
deriving DecidableEq, Repr

/-- The four access modes, field AM of a control word (10_state.md R34). -/
inductive AccessMode where
  /-- AM = 0: counter-latch command, latched read. -/
  | latch
  /-- AM = 1: low-byte-only. -/
  | lsb
  /-- AM = 2: high-byte-only. -/
  | msb
  /-- AM = 3: low-then-high. -/
  | lsbMsb
deriving DecidableEq, Repr

/-- A real number as the period operand of CLK_CONSTRUCT (00_scope.md R6, 10_state.md R23: a real), as plain data: a rational by
its value, an irrational by its sign, which is all that any rule reads of a period, and a name that tells it from other ones
(notes/assumptions/9.md). -/
inductive Period where
  | rational (q : Rat)
  | irrational (positive : Bool) (name : Nat)
deriving DecidableEq, Repr

/-- The notification kinds of the clock (40_clock.md R102). -/
inductive EventKind where
  | tick | double | quad
deriving DecidableEq, Repr

/-- A subscribed listener (10_state.md R27; 40_clock.md R110). -/
inductive Listener where
  /-- The PIT's handler `PIT_TICK` (40_clock.md R113). -/
  | pitTick
  /-- A collaborator's listener, modelled by its trace event alone (R110). -/
  | named (name : Nat)
deriving DecidableEq, Repr

/-- The callback operand of CLK_SUBSCRIBE (40_clock.md R102, R110). -/
inductive Callback where
  /-- A listener the spec gives a meaning. -/
  | admitted (l : Listener)
  /-- A listener that calls the clock, the bus or `set_gate`: a form the model refuses (R110, 60_exceptions.md R248). -/
  | reentrant (name : Nat)
deriving DecidableEq, Repr

/-- A constructed device: the n-th RAM, the n-th ROM, the PIT or the PeripheralInterface (41_bus.md R120). -/
inductive DeviceRef where
  | ram (n : Nat)
  | rom (n : Nat)
  | pit
  | ppi
deriving DecidableEq, Repr

/-- One access of an AddressableDevice: `read(addr)` or `write(addr, v)` (41_bus.md R120; 20_memory.md R64). -/
inductive Access where
  | read (addr : Nat)
  | write (addr : Nat) (v : Byte)
deriving DecidableEq, Repr

/-- The absolute address of an access (20_memory.md R62). -/
def Access.addr : Access → Nat
  | .read a => a
  | .write a _ => a

/-- The operations, one constructor per row of spec/opcode_table.json. Fields of the mode-word rows are those of the
table: `c` the selected channel (SC), `am` the access mode (only where the row leaves it free), `m` the operating mode,
`bcd` the BCD flag. -/
inductive Instr where
  /-- PIT_CW_SC3: mode-word write with SC = 3 (R156). -/
  | pitCwSc3 (am : BitVec 2) (m : BitVec 3) (bcd : BitVec 1)
  /-- PIT_CW_LATCH: counter-latch command (R152). -/
  | pitCwLatch (c : Chan) (m : BitVec 3) (bcd : BitVec 1)
  /-- PIT_CW_SET_LSB (R153). -/
  | pitCwSetLsb (c : Chan) (m : BitVec 3) (bcd : BitVec 1)
  /-- PIT_CW_SET_MSB (R154). -/
  | pitCwSetMsb (c : Chan) (m : BitVec 3) (bcd : BitVec 1)
  /-- PIT_CW_SET_LSBMSB (R155). -/
  | pitCwSetLsbMsb (c : Chan) (m : BitVec 3) (bcd : BitVec 1)
  /-- PIT_WR_DATA_AM0 (R172). -/
  | pitWrDataAm0 (c : Chan) (v : Byte)
  /-- PIT_WR_DATA_LSB (R173). -/
  | pitWrDataLsb (c : Chan) (v : Byte)
  /-- PIT_WR_DATA_MSB (R174). -/
  | pitWrDataMsb (c : Chan) (v : Byte)
  /-- PIT_WR_DATA_LSBMSB (R175). -/
  | pitWrDataLsbMsb (c : Chan) (v : Byte)
  /-- PIT_RD_LATCHED (R176). -/
  | pitRdLatched (c : Chan)
  /-- PIT_RD_LSB (R177). -/
  | pitRdLsb (c : Chan)
  /-- PIT_RD_MSB (R178). -/
  | pitRdMsb (c : Chan)
  /-- PIT_RD_LSBMSB (R179). -/
  | pitRdLsbMsb (c : Chan)
  /-- PIT_RD_CW: read of offset 3 (R158). -/
  | pitRdCw
  /-- PIT_BAD_OFFSET: a direct call of the PIT outside its range (R159). -/
  | pitBadOffset (acc : Access)
  /-- PIT_TICK: the PIT's tick handler (R200). -/
  | pitTick
  /-- PIT_SET_GATE (R205). -/
  | pitSetGate (c : Chan) (level : Bool)
  /-- PIT_CONSTRUCT (R150). -/
  | pitConstruct
  /-- CLK_CONSTRUCT (R100). -/
  | clkConstruct (period : Period)
  /-- CLK_SUBSCRIBE (R102). -/
  | clkSubscribe (kind : EventKind) (listener : Callback)
  /-- CLK_START (R103). -/
  | clkStart
  /-- CLK_STOP (R105). -/
  | clkStop
  /-- CLK_TICK (R106). -/
  | clkTick
  /-- CLK_TOTAL_TICKS (R109). -/
  | clkTotalTicks
  /-- BUS_REGISTER (R122). -/
  | busRegister (d : DeviceRef)
  /-- BUS_READ (R124). -/
  | busRead (addr : Nat)
  /-- BUS_WRITE (R125). -/
  | busWrite (addr : Nat) (v : Byte)
  /-- RAM_CONSTRUCT (R131). -/
  | ramConstruct (base size : Int)
  /-- RAM_READ of the n-th RAM device (R132). -/
  | ramRead (n : Nat) (addr : Nat)
  /-- RAM_WRITE of the n-th RAM device (R133). -/
  | ramWrite (n : Nat) (addr : Nat) (v : Byte)
  /-- ROM_CONSTRUCT (R134). -/
  | romConstruct (base : Int) (bytes : List Byte)
  /-- ROM_READ of the n-th ROM device (R135). -/
  | romRead (n : Nat) (addr : Nat)
  /-- ROM_WRITE of the n-th ROM device (R136). -/
  | romWrite (n : Nat) (addr : Nat) (v : Byte)
  /-- PPI_RD0 (R221). -/
  | ppiRd0
  /-- PPI_WR0 (R222). -/
  | ppiWr0 (v : Byte)
  /-- PPI_RD1 (R223). -/
  | ppiRd1
  /-- PPI_WR1 (R224). -/
  | ppiWr1 (v : Byte)
  /-- PPI_RD2 (R225). -/
  | ppiRd2
  /-- PPI_WR2 (R226). -/
  | ppiWr2 (v : Byte)
  /-- PPI_RD3 (R227). -/
  | ppiRd3
  /-- PPI_WR3 (R228). -/
  | ppiWr3 (v : Byte)
  /-- PPI_BAD_OFFSET: a direct call of the PeripheralInterface outside its range (R229). -/
  | ppiBadOffset (acc : Access)
deriving DecidableEq, Repr

/-- What an agent presents to be performed next, before decoding: the formats of 30_encoding.md R80. -/
inductive Request where
  /-- A PIT port transaction, packed as in R84. -/
  | ptw (w : Nat)
  /-- A PeripheralInterface port transaction, packed as in R94. -/
  | ppw (w : Nat)
  /-- A direct call of the PIT, without the bus (format DIRECT). -/
  | pitDirect (acc : Access)
  /-- A direct call of the PeripheralInterface, without the bus (format DIRECT). -/
  | ppiDirect (acc : Access)
  /-- An operation selected by its name, with no bits (formats HOSTOP and BUS, R89, R95). -/
  | named (i : Instr)
deriving DecidableEq, Repr

/-- What decoding reads beside the request: the three stored access modes (30_encoding.md R87) and the two bases. -/
structure DecodeCtx where
  am0 : AccessMode
  am1 : AccessMode
  am2 : AccessMode
  pitBase : Nat
  ppiBase : Nat
deriving DecidableEq, Repr

end Sys2Proof
end

