-- ==== Sys2Proof/WellFormed.lean ====
section
/-! DEFINITION. The checks on an operation that its type does not make: the conditions column of
spec/opcode_table.json, the direct calls outside a device's range, and the operations no agent issues. -/

namespace Sys2Proof

/-- The stored access mode of a channel, as the decoder sees it (30_encoding.md R87). -/
def DecodeCtx.am (ctx : DecodeCtx) : Chan → AccessMode
  | .ch0 => ctx.am0
  | .ch1 => ctx.am1
  | .ch2 => ctx.am2

/-- The offset `addr - base` lies in 0..3 (20_memory.md R62; PIT and PeripheralInterface have four ports). -/
def inPorts (base addr : Nat) : Bool :=
  decide (base ≤ addr) && decide (addr < base + 4)

/-- Operation `i` is one an agent can issue on a machine whose decoder sees `ctx`: a data-port row is the row its
channel's access mode selects (30_encoding.md R88), a BAD_OFFSET row is outside the four ports (R159, R229), and PIT_TICK
is issued by no agent, since it runs only inside CLK_TICK (30_encoding.md R95). -/
def Instr.wf (ctx : DecodeCtx) : Instr → Bool
  | .pitWrDataAm0 c _ => ctx.am c == .latch
  | .pitWrDataLsb c _ => ctx.am c == .lsb
  | .pitWrDataMsb c _ => ctx.am c == .msb
  | .pitWrDataLsbMsb c _ => ctx.am c == .lsbMsb
  | .pitRdLatched c => ctx.am c == .latch
  | .pitRdLsb c => ctx.am c == .lsb
  | .pitRdMsb c => ctx.am c == .msb
  | .pitRdLsbMsb c => ctx.am c == .lsbMsb
  | .pitBadOffset acc => !inPorts ctx.pitBase acc.addr
  | .ppiBadOffset acc => !inPorts ctx.ppiBase acc.addr
  | .pitTick => false
  | .pitCwSc3 _ _ _ | .pitCwLatch _ _ _ | .pitCwSetLsb _ _ _ | .pitCwSetMsb _ _ _ | .pitCwSetLsbMsb _ _ _
  | .pitRdCw | .pitSetGate _ _ | .pitConstruct
  | .clkConstruct _ | .clkSubscribe _ _ | .clkStart | .clkStop | .clkTick | .clkTotalTicks
  | .busRegister _ | .busRead _ | .busWrite _ _
  | .ramConstruct _ _ | .ramRead _ _ | .ramWrite _ _ _ | .romConstruct _ _ | .romRead _ _ | .romWrite _ _ _
  | .ppiRd0 | .ppiWr0 _ | .ppiRd1 | .ppiWr1 _ | .ppiRd2 | .ppiWr2 _ | .ppiRd3 | .ppiWr3 _ => true

/-- The four status bits of port 2 have four distinct positions (00_scope.md R6, `PPI_PORT2_BITS`). -/
def Params.wf (p : Params) : Bool :=
  decide [p.cassetteBit, p.timerBit, p.ioCheckBit, p.ramCheckBit].Nodup

end Sys2Proof
end

