-- ==== Sys2Proof/Decode.lean ====
section
/-! DEFINITION. Decoding of what an agent presents (spec/30_encoding.md R81 to R95) and, after it, the encoder written
from the same tables. Decoding is total and refuses by name. -/

namespace Sys2Proof

/-- Why a request is no operation of the block. -/
inductive DecodeError where
  /-- A transaction word with a bit above bit 10: PTW and PPW have 11 bits (30_encoding.md R84, R94). -/
  | notPackable (w : Nat)
  /-- An operation that has a bit encoding, or is a direct call, presented by its name (R80). -/
  | notNamed (i : Instr)
  /-- PIT_TICK presented by an agent: it runs only inside CLK_TICK (R95). -/
  | listenerOnly
deriving DecidableEq, Repr

/-! ## Fields -/

/-- The access mode of the two AM bits (30_encoding.md R83; the values 1, 2, 3 are decision D3). -/
def AccessMode.ofBits (b : BitVec 2) : AccessMode :=
  if b = 0 then .latch else if b = 1 then .lsb else if b = 2 then .msb else .lsbMsb

/-- The two AM bits of an access mode (10_state.md R34). -/
def AccessMode.bits : AccessMode → BitVec 2
  | .latch => 0
  | .lsb => 1
  | .msb => 2
  | .lsbMsb => 3

/-- The channel of a two-bit number; 3 names none (30_encoding.md R82). -/
def Chan.ofBits (b : BitVec 2) : Option Chan :=
  if b = 0 then some .ch0 else if b = 1 then some .ch1 else if b = 2 then some .ch2 else none

/-- The number of a channel. -/
def Chan.bits : Chan → BitVec 2
  | .ch0 => 0
  | .ch1 => 1
  | .ch2 => 2

/-- The mode-word byte: bits 7:6 SC, 5:4 AM, 3:1 M, 0 BCD (30_encoding.md R81). -/
def modeByte (sc am : BitVec 2) (m : BitVec 3) (bcd : BitVec 1) : Byte :=
  sc ++ am ++ m ++ bcd

/-- Field SC of a mode-word byte (R81, R82). -/
def scField (v : Byte) : BitVec 2 := v.extractLsb' 6 2

/-- Field AM of a mode-word byte (R81, R83). -/
def amField (v : Byte) : BitVec 2 := v.extractLsb' 4 2

/-- Field M of a mode-word byte (R81, R85). -/
def mField (v : Byte) : BitVec 3 := v.extractLsb' 1 3

/-- Field BCD of a mode-word byte (R81, R86). -/
def bcdField (v : Byte) : BitVec 1 := v.extractLsb' 0 1

/-- The packed transaction word: bit 10 W, bits 9:8 P, bits 7:0 D (R84, R94). -/
def portWord (w : BitVec 1) (p : BitVec 2) (d : Byte) : PortWord := w ++ p ++ d

/-- Field W of a transaction word: 1 is a write. -/
def wField (t : PortWord) : BitVec 1 := t.extractLsb' 10 1

/-- Field P of a transaction word: the port offset. -/
def pField (t : PortWord) : BitVec 2 := t.extractLsb' 8 2

/-- Field D of a transaction word: the byte written. -/
def dField (t : PortWord) : Byte := t.extractLsb' 0 8

/-! ## Decoding -/

/-- A write of byte `v` to PIT offset 3: SC = 3 first, then AM (R88). -/
def decodeModeWord (v : Byte) : Instr :=
  match Chan.ofBits (scField v) with
  | none => .pitCwSc3 (amField v) (mField v) (bcdField v)
  | some c =>
    match AccessMode.ofBits (amField v) with
    | .latch => .pitCwLatch c (mField v) (bcdField v)
    | .lsb => .pitCwSetLsb c (mField v) (bcdField v)
    | .msb => .pitCwSetMsb c (mField v) (bcdField v)
    | .lsbMsb => .pitCwSetLsbMsb c (mField v) (bcdField v)

/-- A data write to channel `c` whose stored access mode is `am` (R87, R88). -/
def decodeDataWrite (am : AccessMode) (c : Chan) (v : Byte) : Instr :=
  match am with
  | .latch => .pitWrDataAm0 c v
  | .lsb => .pitWrDataLsb c v
  | .msb => .pitWrDataMsb c v
  | .lsbMsb => .pitWrDataLsbMsb c v

/-- A data read of channel `c` whose stored access mode is `am` (R87, R88). -/
def decodeDataRead (am : AccessMode) (c : Chan) : Instr :=
  match am with
  | .latch => .pitRdLatched c
  | .lsb => .pitRdLsb c
  | .msb => .pitRdMsb c
  | .lsbMsb => .pitRdLsbMsb c

/-- The PIT decode procedure for a packed transaction (R88). The data bits of a read are ignored (R84). -/
def decodePtw (ctx : DecodeCtx) (t : PortWord) : Instr :=
  match Chan.ofBits (pField t) with
  | none => if wField t = 1 then decodeModeWord (dField t) else .pitRdCw
  | some c => if wField t = 1 then decodeDataWrite (ctx.am c) c (dField t) else decodeDataRead (ctx.am c) c

/-- The PeripheralInterface decode (R94). -/
def decodePpw (t : PortWord) : Instr :=
  if wField t = 1 then
    if pField t = 0 then .ppiWr0 (dField t)
    else if pField t = 1 then .ppiWr1 (dField t)
    else if pField t = 2 then .ppiWr2 (dField t)
    else .ppiWr3 (dField t)
  else
    if pField t = 0 then .ppiRd0
    else if pField t = 1 then .ppiRd1
    else if pField t = 2 then .ppiRd2
    else .ppiRd3

/-- The transaction word of an access at a port offset (R84). -/
def accessWord (base : Nat) : Access → PortWord
  | .read addr => portWord 0 (BitVec.ofNat 2 (addr - base)) 0
  | .write addr v => portWord 1 (BitVec.ofNat 2 (addr - base)) v

/-- A direct call of the PIT: the offset is checked first (R88, R159). -/
def decodePitDirect (ctx : DecodeCtx) (acc : Access) : Instr :=
  if inPorts ctx.pitBase acc.addr then decodePtw ctx (accessWord ctx.pitBase acc) else .pitBadOffset acc

/-- A direct call of the PeripheralInterface (R94, R229). -/
def decodePpiDirect (ctx : DecodeCtx) (acc : Access) : Instr :=
  if inPorts ctx.ppiBase acc.addr then decodePpw (accessWord ctx.ppiBase acc) else .ppiBadOffset acc

/-- An operation presented by its name: the HOSTOP and BUS rows (R89, R95), but for PIT_TICK. -/
def decodeNamed (i : Instr) : Except DecodeError Instr :=
  match i with
  | .pitTick => .error .listenerOnly
  | .pitSetGate _ _ | .pitConstruct
  | .clkConstruct _ | .clkSubscribe _ _ | .clkStart | .clkStop | .clkTick | .clkTotalTicks
  | .busRegister _ | .busRead _ | .busWrite _ _
  | .ramConstruct _ _ | .ramRead _ _ | .ramWrite _ _ _ | .romConstruct _ _ | .romRead _ _ | .romWrite _ _ _ => .ok i
  | .pitCwSc3 _ _ _ | .pitCwLatch _ _ _ | .pitCwSetLsb _ _ _ | .pitCwSetMsb _ _ _ | .pitCwSetLsbMsb _ _ _
  | .pitWrDataAm0 _ _ | .pitWrDataLsb _ _ | .pitWrDataMsb _ _ | .pitWrDataLsbMsb _ _
  | .pitRdLatched _ | .pitRdLsb _ | .pitRdMsb _ | .pitRdLsbMsb _ | .pitRdCw | .pitBadOffset _
  | .ppiRd0 | .ppiWr0 _ | .ppiRd1 | .ppiWr1 _ | .ppiRd2 | .ppiWr2 _ | .ppiRd3 | .ppiWr3 _ | .ppiBadOffset _ =>
    .error (.notNamed i)

/-- The operation a request is, on a machine whose decoder sees `ctx`. -/
def decode (ctx : DecodeCtx) : Request → Except DecodeError Instr
  | .ptw w => if w < 2048 then .ok (decodePtw ctx (BitVec.ofNat 11 w)) else .error (.notPackable w)
  | .ppw w => if w < 2048 then .ok (decodePpw (BitVec.ofNat 11 w)) else .error (.notPackable w)
  | .pitDirect acc => .ok (decodePitDirect ctx acc)
  | .ppiDirect acc => .ok (decodePpiDirect ctx acc)
  | .named i => decodeNamed i

/-- The decoder's view of a machine after reset: every channel has AM = 0 (10_state.md R33). -/
def resetCtx (p : Params) : DecodeCtx :=
  { am0 := .latch, am1 := .latch, am2 := .latch, pitBase := p.pitBase, ppiBase := p.ppiBase }

/-- The request that the bits of an opcode-table word are: a PIT transaction word, the format the table lists first
(notes/assumptions/3.md). -/
def tableRequest (_nbits w : Nat) : Request := .ptw w

/-- The operation the decoder reads from an opcode-table word, on a machine after reset. -/
def decodeTableWord (nbits w : Nat) : Option Instr :=
  match decode (resetCtx Config.exampleParams) (tableRequest nbits w) with
  | .ok i => some i
  | .error _ => none

/-! ## Encoding -/

/-- The transaction word of a mode-word write (R84: `0x700 | v`). -/
def modeWordRequest (sc am : BitVec 2) (m : BitVec 3) (bcd : BitVec 1) : Request :=
  .ptw (portWord 1 3 (modeByte sc am m bcd)).toNat

/-- The transaction word of a data write (R84: `0x400 | (c << 8) | v`). -/
def dataWriteRequest (c : Chan) (v : Byte) : Request := .ptw (portWord 1 c.bits v).toNat

/-- The transaction word of a data read (R84: `c << 8`). -/
def dataReadRequest (c : Chan) : Request := .ptw (portWord 0 c.bits 0).toNat

/-- How an agent presents an operation: its words where it has bits, a direct call, or its name. -/
def encode : Instr → Request
  | .pitCwSc3 am m bcd => modeWordRequest 3 am m bcd
  | .pitCwLatch c m bcd => modeWordRequest c.bits 0 m bcd
  | .pitCwSetLsb c m bcd => modeWordRequest c.bits 1 m bcd
  | .pitCwSetMsb c m bcd => modeWordRequest c.bits 2 m bcd
  | .pitCwSetLsbMsb c m bcd => modeWordRequest c.bits 3 m bcd
  | .pitWrDataAm0 c v => dataWriteRequest c v
  | .pitWrDataLsb c v => dataWriteRequest c v
  | .pitWrDataMsb c v => dataWriteRequest c v
  | .pitWrDataLsbMsb c v => dataWriteRequest c v
  | .pitRdLatched c => dataReadRequest c
  | .pitRdLsb c => dataReadRequest c
  | .pitRdMsb c => dataReadRequest c
  | .pitRdLsbMsb c => dataReadRequest c
  | .pitRdCw => .ptw 0x300
  | .pitBadOffset acc => .pitDirect acc
  | .pitTick => .named .pitTick
  | .pitSetGate c level => .named (.pitSetGate c level)
  | .pitConstruct => .named .pitConstruct
  | .clkConstruct period => .named (.clkConstruct period)
  | .clkSubscribe kind l => .named (.clkSubscribe kind l)
  | .clkStart => .named .clkStart
  | .clkStop => .named .clkStop
  | .clkTick => .named .clkTick
  | .clkTotalTicks => .named .clkTotalTicks
  | .busRegister d => .named (.busRegister d)
  | .busRead addr => .named (.busRead addr)
  | .busWrite addr v => .named (.busWrite addr v)
  | .ramConstruct base size => .named (.ramConstruct base size)
  | .ramRead n addr => .named (.ramRead n addr)
  | .ramWrite n addr v => .named (.ramWrite n addr v)
  | .romConstruct base bytes => .named (.romConstruct base bytes)
  | .romRead n addr => .named (.romRead n addr)
  | .romWrite n addr v => .named (.romWrite n addr v)
  | .ppiRd0 => .ppw 0x000
  | .ppiWr0 v => .ppw (portWord 1 0 v).toNat
  | .ppiRd1 => .ppw 0x100
  | .ppiWr1 v => .ppw (portWord 1 1 v).toNat
  | .ppiRd2 => .ppw 0x200
  | .ppiWr2 v => .ppw (portWord 1 2 v).toNat
  | .ppiRd3 => .ppw 0x300
  | .ppiWr3 v => .ppw (portWord 1 3 v).toNat
  | .ppiBadOffset acc => .ppiDirect acc

end Sys2Proof
end

