-- ==== Sys2Proof/Machine/State.lean ====
section
/-! DEFINITION. The state the spec gives the machine (spec/10_state.md R22), the model's own bookkeeping, the ways a step
can stop, and the state after the boot sequence (70_reset_and_hazards.md R270, R271, R273). Plain data throughout. -/

namespace Sys2Proof.Machine

/-- Contents of a RAM device: the bytes written so far, keyed by offset, offsets strictly rising. An offset that is not
listed has not been written and reads as the free value `Config.ramInit` (10_state.md R29; notes/assumptions/6.md). -/
abbrev Memory := List Host.Cell

/-- The HardwareClock (10_state.md R23 to R27). -/
structure Clock where
  /-- `tick_period` (R23). -/
  tickPeriod : Period
  /-- `phase_counter`, 0..3 between steps (R24). -/
  phaseCounter : Fin 4
  /-- `total_ticks` (R25). -/
  totalTicks : Nat
  /-- `running` (R26). -/
  running : Bool
  /-- `listeners[TICK]` (R27). -/
  tickListeners : List Listener
  /-- `listeners[DOUBLE]` (R27). -/
  doubleListeners : List Listener
  /-- `listeners[QUAD]` (R27). -/
  quadListeners : List Listener
deriving DecidableEq, Repr

/-- A device registered on the bus, with its base address and size (10_state.md R28). -/
structure BusEntry where
  device : DeviceRef
  base : Int
  size : Int
deriving DecidableEq, Repr

/-- A RAM device (10_state.md R29). Base and size are integers: a bad one is refused when the device is registered
(41_bus.md R123). -/
structure Ram where
  base : Int
  size : Int
  mem : Memory
deriving DecidableEq, Repr

/-- A ROM device; its size is the number of its bytes (10_state.md R30). -/
structure Rom where
  base : Int
  bytes : List Byte
deriving DecidableEq, Repr

/-- One PIT channel (10_state.md R33 to R45). -/
structure Channel where
  /-- `control_word` (R33). -/
  controlWord : Byte
  /-- `counter` (R38). -/
  counter : Word16
  /-- `count_latch` (R39). -/
  countLatch : Word16
  /-- `count_latch_phase`: false, the next latched read returns the low byte (R40). -/
  latchPhase : Bool
  /-- `readwrite_phase[0]`: false, the next low-then-high read returns the low byte (R41). -/
  readPhase : Bool
  /-- `readwrite_phase[1]`: false, the next low-then-high write sets the low byte (R42). -/
  writePhase : Bool
  /-- `gate` (R43). -/
  gate : Bool
  /-- `running` (R44). -/
  running : Bool
  /-- `output` (R45). -/
  output : Bool
deriving DecidableEq, Repr

/-- The PIT's channel file (10_state.md R32). Its base is the parameter `PIT_BASE` and its size 4 (R31). -/
structure Pit where
  ch0 : Channel
  ch1 : Channel
  ch2 : Channel
deriving DecidableEq, Repr

/-- The PeripheralInterface's own state (10_state.md R48). -/
structure Ppi where
  /-- `port1_latch`. -/
  port1Latch : Byte
deriving DecidableEq, Repr

/-- The keyboard collaborator's settable input (45_peripheral_interface.md R224, R230). -/
structure Keyboard where
  /-- `clock_enable`. -/
  clockEnable : Bool
deriving DecidableEq, Repr

/-- The errors of 60_exceptions.md R240, each with its recorded value. -/
inductive HwError where
  /-- Code 1, AddressRangeError: the address (R241). -/
  | addressRange (addr : Nat)
  /-- Code 2, InvalidModeError of a mode word with SC = 3: the byte (42_pit_control.md R156). -/
  | invalidModeWord (v : Byte)
  /-- Code 2, InvalidModeError of a data write with AM = 0: the channel and its access mode (43_pit_data.md R172). -/
  | invalidAccessMode (c : Chan) (am : AccessMode)
  /-- Code 3, OverlapError: the new device and the registered one (R243). -/
  | overlap (d e : BusEntry)
  /-- Code 4, UnsupportedConfigurationError: the byte (R244). -/
  | unsupportedConfiguration (v : Byte)
  /-- Code 5, InvalidTickPeriod: the period (R245). -/
  | invalidTickPeriod (period : Period)
deriving DecidableEq, Repr

/-- The accesses the source gives no meaning, outcome `Undefined` of 60_exceptions.md R247. -/
inductive UndefinedAccess where
  /-- Read of PIT offset 3, by PIT_RD_CW (42_pit_control.md R158). -/
  | pitOffset3Read
  /-- Write of PeripheralInterface port 0, by PPI_WR0 (45_peripheral_interface.md R222). -/
  | ppiPort0Write
  /-- Read of PeripheralInterface port 1, by PPI_RD1 (R223). -/
  | ppiPort1Read
  /-- Write of PeripheralInterface port 2, by PPI_WR2 (R226). -/
  | ppiPort2Write
deriving DecidableEq, Repr

/-- The forms the spec deliberately does not admit, outcome `Refused` of 60_exceptions.md R248. -/
inductive RefusedForm where
  /-- A device with a negative base or a size below 1, by BUS_REGISTER (41_bus.md R123). -/
  | deviceConfiguration (d : BusEntry)
  /-- A mode word with M other than 0 under the policy `refuse`, by a PIT_CW_* operation (44_pit_counting.md R207). -/
  | modeWord (v : Byte)
  /-- A listener that calls the clock, the bus or `set_gate`, by CLK_SUBSCRIBE (40_clock.md R110). -/
  | reentrantListener (kind : EventKind) (name : Nat)
deriving DecidableEq, Repr

/-- A record of `faults`: a model-only outcome; its constructor and argument name the operation (10_state.md R49). -/
inductive FaultRecord where
  | undefined (u : UndefinedAccess)
  | refused (r : RefusedForm)
deriving DecidableEq, Repr

/-- What an operation returned to its caller (00_scope.md R10). The MODEL's own field (notes/assumptions/10.md). -/
inductive Result where
  /-- No operation has been performed yet. -/
  | idle
  /-- `ok` without a value. -/
  | ok
  /-- `ok` with a result byte. -/
  | byte (b : Byte)
  /-- `ok` with an integer. -/
  | count (n : Nat)
  /-- `error E`. -/
  | error (e : HwError)
  /-- `fault Undefined(what)`. -/
  | undefined (u : UndefinedAccess)
  /-- The model-only outcome `Refused`. -/
  | refused (r : RefusedForm)
  /-- The step was not enabled and nothing happened (40_clock.md R111; notes/assumptions/15.md). -/
  | notEnabled
deriving DecidableEq, Repr

/-- One entry of the observable trace: the notification kind, the listener invoked, and the tick count it sees
(40_clock.md R104, R112). -/
structure Event where
  kind : EventKind
  listener : Listener
  totalTicks : Nat
deriving DecidableEq, Repr

/-- The state: the tuple (clock, bus, devices, faults) of 10_state.md R22, the parameters (00_scope.md R6), the
collaborator's input, and the model's own `pending`, `result`, `trace` and `draws`. -/
structure State where
  /-- The parameters, which no step changes (notes/assumptions/5.md). -/
  params : Params
  /-- The clock has been constructed; a unit's state is set once (70_reset_and_hazards.md R270; 60_exceptions.md R245). -/
  clockExists : Bool
  clock : Clock
  /-- `bus.devices`, in registration order (10_state.md R28). -/
  bus : List BusEntry
  /-- The constructed RAM devices; the n-th is `DeviceRef.ram n`. -/
  rams : List Ram
  /-- The constructed ROM devices; the n-th is `DeviceRef.rom n`. -/
  roms : List Rom
  /-- The PIT has been constructed (70_reset_and_hazards.md R270; 42_pit_control.md R150). -/
  pitExists : Bool
  pit : Pit
  ppi : Ppi
  keyboard : Keyboard
  /-- `faults`, a set: no record twice (10_state.md R49). -/
  faults : List FaultRecord
  /-- MODEL: the operations the agents perform next, in the order of the interleaving (notes/assumptions/1.md). -/
  pending : List Request
  /-- MODEL: what the last operation returned (notes/assumptions/10.md). -/
  result : Result
  /-- MODEL: the notification trace, oldest first (40_clock.md R104; notes/assumptions/10.md). -/
  trace : List Event
  /-- MODEL: how many draws have been taken (notes/assumptions/7.md). -/
  draws : Nat
deriving DecidableEq, Repr

/-- The machine stops with a fault. Both are raised by `step` alone, never by a meaning. -/
inductive Fault where
  /-- `faults` holds a record: nothing continues past an access with no meaning (92_eei_decisions.md D26). Safe
  (notes/assumptions/12.md). -/
  | stickyFault (r : FaultRecord)
  /-- The last operation returned OverlapError or InvalidTickPeriod, which are fatal (60_exceptions.md R243, R245, R250).
  Safe (notes/assumptions/11.md). -/
  | fatalConfiguration (e : HwError)
deriving DecidableEq, Repr

/-- No meaning for what was asked. -/
inductive Refusal where
  /-- An instruction whose arm of `exec` has no meaning yet, raised by `exec`. Safe. -/
  | notModelled (mnemonic : String)
  /-- An operand that names a device which was never constructed, raised by the operations that name a device and by the
  bus. Safe (notes/assumptions/18.md). -/
  | noSuchDevice (d : DeviceRef)
  /-- A clock constructed although one exists, raised by CLK_CONSTRUCT: a unit's state is set once (70_reset_and_hazards.md
  R270; 40_clock.md R101). Safe (notes/assumptions/14.md). -/
  | clockAlreadyConstructed
  /-- A PIT constructed although one exists, raised by PIT_CONSTRUCT, for the same reason. Safe (notes/assumptions/14.md). -/
  | pitAlreadyConstructed
  /-- A request that is no operation of the block, raised by `step`. Safe (notes/assumptions/2.md). -/
  | undecodable (e : DecodeError)
deriving DecidableEq, Repr

/-- What one operation answers. -/
abbrev Answer := Host.Outcome State Fault Refusal

/-- A channel as the PIT's construction leaves it, all zero (42_pit_control.md R150). -/
def Channel.zero : Channel where
  controlWord := 0
  counter := 0
  countLatch := 0
  latchPhase := false
  readPhase := false
  writePhase := false
  gate := false
  running := false
  output := false

/-- The PIT after construction (42_pit_control.md R150). -/
def Pit.zero : Pit := { ch0 := Channel.zero, ch1 := Channel.zero, ch2 := Channel.zero }

/-- The clock after CLK_CONSTRUCT (40_clock.md R100). -/
def Clock.constructed (period : Period) : Clock where
  tickPeriod := period
  phaseCounter := 0
  totalTicks := 0
  running := false
  tickListeners := []
  doubleListeners := []
  quadListeners := []

/-! ## The state before anything is constructed, and the state after the boot sequence -/

/-- An entry of `DEVICE_MAP` (00_scope.md R6): a device to construct and to register. A ROM's size is the number of its bytes,
`ROM_BYTES`; the PIT and the PeripheralInterface have the bases `PIT_BASE` and `PPI_BASE` and size 4. -/
inductive MapEntry where
  | ram (base size : Int)
  | rom (base : Int) (bytes : List Byte)
  | pit
  | ppi
deriving DecidableEq, Repr

/-- What the host boots the block with (70_reset_and_hazards.md R273; 00_scope.md R6). -/
structure BootConfig where
  /-- `TICK_PERIOD`, the operand of step 1. -/
  tickPeriod : Period
  /-- `DEVICE_MAP` with `ROM_BYTES`, steps 2 and 3. -/
  deviceMap : List MapEntry
  /-- The listeners subscribed in step 4, in that order. -/
  listeners : List (EventKind × Listener)
  /-- The gates set high in step 5. -/
  gates : List Chan
deriving DecidableEq, Repr

/-- The RAM devices of a device map, in its order. -/
def mapRams : List MapEntry → List Ram
  | [] => []
  | .ram base size :: rest => { base := base, size := size, mem := [] } :: mapRams rest
  | .rom _ _ :: rest => mapRams rest
  | .pit :: rest => mapRams rest
  | .ppi :: rest => mapRams rest

/-- The ROM devices of a device map, in its order. -/
def mapRoms : List MapEntry → List Rom
  | [] => []
  | .rom base bytes :: rest => { base := base, bytes := bytes } :: mapRoms rest
  | .ram _ _ :: rest => mapRoms rest
  | .pit :: rest => mapRoms rest
  | .ppi :: rest => mapRoms rest

/-- The entries a device map puts on the bus, in its order, when `nRam` RAMs and `nRom` ROMs come before it. -/
def mapBus (p : Params) (nRam nRom : Nat) : List MapEntry → List BusEntry
  | [] => []
  | .ram base size :: rest => { device := .ram nRam, base := base, size := size } :: mapBus p (nRam + 1) nRom rest
  | .rom base bytes :: rest =>
    { device := .rom nRom, base := base, size := bytes.length } :: mapBus p nRam (nRom + 1) rest
  | .pit :: rest => { device := .pit, base := p.pitBase, size := 4 } :: mapBus p nRam nRom rest
  | .ppi :: rest => { device := .ppi, base := p.ppiBase, size := 4 } :: mapBus p nRam nRom rest

/-- The listeners of one kind that the boot subscribes, in order. -/
def bootListeners (kind : EventKind) : List (EventKind × Listener) → List Listener
  | [] => []
  | (k, l) :: rest => if k = kind then l :: bootListeners kind rest else bootListeners kind rest

/-- A channel after construction and step 5 of the boot: its gate set high or not, which in mode 0 is also `running`
(44_pit_counting.md R205). -/
def Channel.booted (high : Bool) : Channel := { Channel.zero with gate := high, running := high }

/-- The machine with nothing constructed yet. The spec gives no state before construction; the values of the clock and the PIT
are overwritten when these are constructed, and those of the other fields are the values after construction
(70_reset_and_hazards.md R271; DESIGN CHOICE, notes/assumptions/4.md; the clock-enable level, notes/assumptions/8.md). -/
def State.blank (p : Params) : State where
  params := p
  clockExists := false
  clock := Clock.constructed (.rational 1)
  bus := []
  rams := []
  roms := []
  pitExists := false
  pit := Pit.zero
  ppi := { port1Latch := p.port1Init }
  keyboard := { clockEnable := false }
  faults := []
  pending := []
  result := .idle
  trace := []
  draws := 0

/-- The initial state: the machine after the boot sequence R273 (70_reset_and_hazards.md R270): everything constructed with the
values of R271, the device map registered, the listeners subscribed, the gates set, the clock started. -/
def State.init (p : Params) (b : BootConfig) : State :=
  { State.blank p with
    clockExists := true
    clock := { Clock.constructed b.tickPeriod with
      running := true
      tickListeners := .pitTick :: bootListeners .tick b.listeners
      doubleListeners := bootListeners .double b.listeners
      quadListeners := bootListeners .quad b.listeners }
    bus := mapBus p 0 0 b.deviceMap
    rams := mapRams b.deviceMap
    roms := mapRoms b.deviceMap
    pitExists := true
    pit := {
      ch0 := Channel.booted (b.gates.contains .ch0)
      ch1 := Channel.booted (b.gates.contains .ch1)
      ch2 := Channel.booted (b.gates.contains .ch2) } }

/-- The boot that `State.reset` takes, in the shape of the common configuration of 95_test_vectors.md: the clock with period 1,
a RAM, a ROM, the PIT and the PeripheralInterface, no other listener, no gate high. DESIGN CHOICE: the source gives no
`DEVICE_MAP`, no `ROM_BYTES` and no `TICK_PERIOD` (notes/assumptions/5.md, notes/assumptions/9.md). -/
def exampleBoot : BootConfig where
  tickPeriod := .rational 1
  deviceMap := [.ram 0 0x4000, .rom 0x4000 [0xEA, 0xF1, 0xF8, 0xFF], .pit, .ppi]
  listeners := []
  gates := []

/-- The machine right after reset, under the example parameters (notes/assumptions/4.md, notes/assumptions/5.md). -/
def State.reset : State := State.init Config.exampleParams exampleBoot

end Sys2Proof.Machine
end

