-- ==== Sys2Proof/Machine/Ops.lean ====
section
/-! DEFINITION. The named operations over memory, devices and channels, how an operation ends (spec/00_scope.md R10),
and what an error, an Undefined access and a Refused form do (60_exceptions.md R246 to R249). -/

namespace Sys2Proof.Machine

/-! ## Memory of a RAM device -/

/-- The byte written last at an offset, or none if nothing has written it. -/
def Memory.get? : Memory → Nat → Option Byte
  | [], _ => none
  | (a, b) :: rest, i => if a = i then some b else Memory.get? rest i

/-- Write a byte at an offset, keeping the offsets strictly rising. -/
def Memory.put : Memory → Nat → Byte → Memory
  | [], i, v => [(i, v)]
  | (a, b) :: rest, i, v =>
    if i < a then (i, v) :: (a, b) :: rest
    else if i = a then (a, v) :: rest
    else (a, b) :: Memory.put rest i v

/-- Every offset of the list is above `lo` (where there is one), and the offsets rise strictly. -/
def Memory.risingFrom : Option Nat → Memory → Bool
  | _, [] => true
  | none, (a, _) :: rest => Memory.risingFrom (some a) rest
  | some lo, (a, _) :: rest => decide (lo < a) && Memory.risingFrom (some a) rest

/-- The canonical form: offsets strictly rising. An unlisted offset holds no written byte, so no entry equals what an
unlisted one holds. -/
def Memory.wf (m : Memory) : Bool := Memory.risingFrom none m

/-- Byte `i` of the `n`-th RAM device: the last write, or `RAM_INIT` (20_memory.md R71; 10_state.md R29). -/
def ramByte (n : Nat) (mem : Memory) (i : Nat) : Byte :=
  match Memory.get? mem i with
  | some b => b
  | none => Config.ramInit n i

/-! ## Channels -/

/-- Channel `c` of the channel file. -/
def Pit.channel (p : Pit) : Chan → Channel
  | .ch0 => p.ch0
  | .ch1 => p.ch1
  | .ch2 => p.ch2

/-- The channel file with channel `c` replaced; the others are kept (10_state.md R32). -/
def Pit.setChannel (p : Pit) (c : Chan) (x : Channel) : Pit :=
  match c with
  | .ch0 => { p with ch0 := x }
  | .ch1 => { p with ch1 := x }
  | .ch2 => { p with ch2 := x }

/-- Channel `c` of the machine. -/
def State.channel (s : State) (c : Chan) : Channel := s.pit.channel c

/-- The machine with channel `c` replaced. -/
def State.setChannel (s : State) (c : Chan) (x : Channel) : State :=
  { s with pit := s.pit.setChannel c x }

/-! ## How an operation ends -/

/-- The operation returns `r` to its caller (00_scope.md R10). -/
def State.returning (s : State) (r : Result) : State := { s with result := r }

/-- The numeric code of an error (60_exceptions.md R240). -/
def HwError.code : HwError → Nat
  | .addressRange _ => 1
  | .invalidModeWord _ => 2
  | .invalidAccessMode _ _ => 2
  | .overlap _ _ => 3
  | .unsupportedConfiguration _ => 4
  | .invalidTickPeriod _ => 5

/-- The construction-time fatal errors, codes 3 and 5 (60_exceptions.md R250). -/
def HwError.fatal : HwError → Bool
  | .overlap _ _ => true
  | .invalidTickPeriod _ => true
  | .addressRange _ => false
  | .invalidModeWord _ => false
  | .invalidAccessMode _ _ => false
  | .unsupportedConfiguration _ => false

/-- Raise an error: nothing is written, and the error is returned to the caller (60_exceptions.md R246). The one
operation every error goes through. -/
def raise (e : HwError) (s : State) : Answer := .next (s.returning (.error e))

/-- Add a record to `faults`, which is a set (10_state.md R49). -/
def State.record (s : State) (r : FaultRecord) : State :=
  if s.faults.contains r then s else { s with faults := s.faults ++ [r] }

/-- The model-only fault `Undefined`: the access is recorded and no device state is written (60_exceptions.md R247). -/
def undefinedAccess (u : UndefinedAccess) (s : State) : Answer :=
  .next ((s.record (.undefined u)).returning (.undefined u))

/-- The model-only outcome `Refused`: the form is recorded and no device state is written (60_exceptions.md R248). -/
def refuseForm (r : RefusedForm) (s : State) : Answer :=
  .next ((s.record (.refused r)).returning (.refused r))

/-! ## Devices and listeners -/

/-- Base and size of a constructed device (41_bus.md R120; the PIT and the PeripheralInterface have size 4). -/
def State.deviceEntry (s : State) (d : DeviceRef) : Option BusEntry :=
  match d with
  | .ram n => s.rams[n]?.map fun r => { device := d, base := r.base, size := r.size }
  | .rom n => s.roms[n]?.map fun r => { device := d, base := r.base, size := r.bytes.length }
  | .pit => if s.pitExists then some { device := d, base := s.params.pitBase, size := 4 } else none
  | .ppi => some { device := d, base := s.params.ppiBase, size := 4 }

/-- The address lies in `[base, base+size)` (41_bus.md R121, R126). -/
def inRange (base size : Int) (addr : Nat) : Bool :=
  decide (base ≤ (addr : Int)) && decide ((addr : Int) < base + size)

/-- The device-local offset `addr - base` of an address in range (20_memory.md R62). -/
def offsetOf (base : Int) (addr : Nat) : Nat := ((addr : Int) - base).toNat

/-- The listeners of one kind, in registration order (10_state.md R27). -/
def Clock.listeners (k : Clock) : EventKind → List Listener
  | .tick => k.tickListeners
  | .double => k.doubleListeners
  | .quad => k.quadListeners

/-- Append a listener to the list of one kind; the same listener may be appended again (40_clock.md R102). -/
def Clock.subscribe (k : Clock) (kind : EventKind) (l : Listener) : Clock :=
  match kind with
  | .tick => { k with tickListeners := k.tickListeners ++ [l] }
  | .double => { k with doubleListeners := k.doubleListeners ++ [l] }
  | .quad => { k with quadListeners := k.quadListeners ++ [l] }

end Sys2Proof.Machine
end

