-- ==== Sys2Proof/Machine/Operands.lean ====
section
/-! DEFINITION. The operand forms of the block (spec/30_encoding.md R90, 00_scope.md R8): the two bytes of a counter,
the BCD write clamp, the two decrements, and the sign of a period. -/

namespace Sys2Proof.Machine

/-- Bits 7:0 of a 16-bit value (00_scope.md R8). -/
def lo (w : Word16) : Byte := w.extractLsb' 0 8

/-- Bits 15:8 of a 16-bit value (00_scope.md R8). -/
def hi (w : Word16) : Byte := w.extractLsb' 8 8

/-- `{h, l}`, with `h` in bits 15:8 (00_scope.md R8). -/
def joinBytes (h l : Byte) : Word16 := h ++ l

/-- The counter with its low byte replaced, the high byte kept (43_pit_data.md R173). -/
def withLo (w : Word16) (b : Byte) : Word16 := joinBytes (hi w) b

/-- The counter with its high byte replaced, the low byte kept (43_pit_data.md R174). -/
def withHi (w : Word16) (b : Byte) : Word16 := joinBytes b (lo w)

/-- The byte a phase flag selects: false the low one, true the high one (10_state.md R40, R41). -/
def phaseByte (phase : Bool) (w : Word16) : Byte := if phase then hi w else lo w

/-- Nibble `i` of a 16-bit value (00_scope.md R8). -/
def nib (w : Word16) (i : Nat) : BitVec 4 := w.extractLsb' (4 * i) 4

/-- The 16-bit value of four nibbles, the most significant first. -/
def joinNibs (n3 n2 n1 n0 : BitVec 4) : Word16 := n3 ++ n2 ++ n1 ++ n0

/-- A nibble forced to 9 when it exceeds 9 (43_pit_data.md R170). -/
def clampNib (n : BitVec 4) : BitVec 4 := if n > 9 then 9 else n

/-- The BCD write clamp, nibble by nibble (43_pit_data.md R170). -/
def clampBcd (v : Byte) : Byte := clampNib (v.extractLsb' 4 4) ++ clampNib (v.extractLsb' 0 4)

/-- The byte a data write stores: clamped when the channel counts in BCD (43_pit_data.md R170, R173 to R175). -/
def writeByte (bcd : Bool) (v : Byte) : Byte := if bcd then clampBcd v else v

/-- The binary decrement of a nonzero counter (44_pit_counting.md R201). -/
def binDec (w : Word16) : Word16 := w - 1

/-- The BCD decrement of a nonzero counter: 1 is taken from the least nonzero digit and every lower digit becomes 9
(44_pit_counting.md R202; 90_conflicts.md C2). Nibbles above 9 are decremented as numbers (decision D10). -/
def bcdDec (w : Word16) : Word16 :=
  if nib w 0 ≠ 0 then joinNibs (nib w 3) (nib w 2) (nib w 1) (nib w 0 - 1)
  else if nib w 1 ≠ 0 then joinNibs (nib w 3) (nib w 2) (nib w 1 - 1) 9
  else if nib w 2 ≠ 0 then joinNibs (nib w 3) (nib w 2 - 1) 9 9
  else joinNibs (nib w 3 - 1) 9 9 9

/-- A period is greater than 0 (40_clock.md R100). -/
def periodPositive : Period → Bool
  | .rational q => decide (0 < q.num)
  | .irrational positive _ => positive

/-- The stored access mode of a channel (10_state.md R34; 30_encoding.md R87). -/
def Channel.am (x : Channel) : AccessMode := AccessMode.ofBits (amField x.controlWord)

/-- The operating mode of a channel is 0 (10_state.md R35). -/
def Channel.modeZero (x : Channel) : Bool := mField x.controlWord == 0

/-- The channel counts in BCD (10_state.md R36). -/
def Channel.bcd (x : Channel) : Bool := bcdField x.controlWord == 1

/-- What the counter of a channel becomes in one tick: decremented when the channel is running and the counter is not
zero (44_pit_counting.md R200 to R203; the running test is 90_conflicts.md C1). -/
def Channel.nextCount (x : Channel) : Word16 :=
  if x.running && x.counter != 0 then (if x.bcd then bcdDec x.counter else binDec x.counter) else x.counter

end Sys2Proof.Machine
end

