-- ==== Sys2Proof/Machine/MemoryDevices.lean ====
section
/-! DEFINITION. RAM and ROM devices (spec/41_bus.md R131 to R137). -/

namespace Sys2Proof.Machine

/-- Access of the `n`-th RAM device at `addr`: AddressRangeError outside its range (R137), `k` with the device and the
offset inside. -/
def withRam (n addr : Nat) (k : Ram → Nat → Answer) (s : State) : Answer :=
  match s.rams[n]? with
  | none => .refused (.noSuchDevice (.ram n))
  | some d => if inRange d.base d.size addr then k d (offsetOf d.base addr) else raise (.addressRange addr) s

/-- Access of the `n`-th ROM device at `addr`: as for a RAM device (R137). -/
def withRom (n addr : Nat) (k : Rom → Nat → Answer) (s : State) : Answer :=
  match s.roms[n]? with
  | none => .refused (.noSuchDevice (.rom n))
  | some d => if inRange d.base d.bytes.length addr then k d (offsetOf d.base addr) else raise (.addressRange addr) s

/-- RAM_CONSTRUCT (R131): a new device with no byte written yet; it is not registered. -/
def execRamConstruct (base size : Int) (s : State) : Answer :=
  .next ({ s with rams := s.rams ++ [({ base := base, size := size, mem := [] } : Ram)] }.returning .ok)

/-- RAM_READ (R132). -/
def execRamRead (n addr : Nat) (s : State) : Answer :=
  withRam n addr (fun d i => .next (s.returning (.byte (ramByte n d.mem i)))) s

/-- RAM_WRITE (R133). -/
def execRamWrite (n addr : Nat) (v : Byte) (s : State) : Answer :=
  withRam n addr
    (fun d i => .next ({ s with rams := s.rams.set n { d with mem := Memory.put d.mem i v } }.returning .ok)) s

/-- ROM_CONSTRUCT (R134): a new device with the given bytes; it is not registered. -/
def execRomConstruct (base : Int) (bytes : List Byte) (s : State) : Answer :=
  .next ({ s with roms := s.roms ++ [({ base := base, bytes := bytes } : Rom)] }.returning .ok)

/-- ROM_READ (R135). In range the offset is below the number of bytes. -/
def execRomRead (n addr : Nat) (s : State) : Answer :=
  withRom n addr (fun d i => .next (s.returning (.byte (d.bytes.getD i 0)))) s

/-- ROM_WRITE (R136): accepted in range, with no effect. -/
def execRomWrite (n addr : Nat) (_v : Byte) (s : State) : Answer :=
  withRom n addr (fun _ _ => .next (s.returning .ok)) s

end Sys2Proof.Machine
end

