-- ==== Sys2Proof/Machine/Peripheral.lean ====
section
/-! DEFINITION. The PeripheralInterface's ports (spec/45_peripheral_interface.md R220 to R230). -/

namespace Sys2Proof.Machine

/-- A status bit at its position, the other bits 0 (R225). -/
def bitAt (b : Bool) (pos : Fin 8) : Byte := if b then (1 : Byte) <<< pos.val else 0

/-- Bit 7 of the port-1 latch selects the switches on port 0 (R221). -/
def switchesSelected (s : State) : Bool := s.ppi.port1Latch.getLsbD 7 == s.params.port0SwitchWhen

/-- The status byte of port 2: four bits OR'd with the second switch byte. Cassette, IO-check and RAM-check are draws (R225). -/
def port2Byte (s : State) : Byte :=
  s.params.ppiSw2 ||| bitAt (Config.cassetteIn s.draws) s.params.cassetteBit
    ||| bitAt s.pit.ch2.output s.params.timerBit
    ||| bitAt (Config.ioCheck s.draws) s.params.ioCheckBit
    ||| bitAt (Config.ramCheck s.draws) s.params.ramCheckBit

/-- One draw has been taken, so the next one is a fresh free value (notes/assumptions/7.md). -/
def State.drawn (s : State) : State := { s with draws := s.draws + 1 }

/-- PPI_RD0 (R221): the switch byte, or one `get()` of the keyboard collaborator. -/
def execPpiRd0 (s : State) : Answer :=
  if switchesSelected s then .next (s.returning (.byte s.params.ppiSw1))
  else .next (s.drawn.returning (.byte (Config.keyboardGet s.draws)))

/-- PPI_WR0 (R222): fault Undefined. -/
def execPpiWr0 (_v : Byte) (s : State) : Answer := undefinedAccess .ppiPort0Write s

/-- PPI_RD1 (R223): fault Undefined. -/
def execPpiRd1 (s : State) : Answer := undefinedAccess .ppiPort1Read s

/-- PPI_WR1 (R224): the latch, and bit 6 to the keyboard's clock-enable input. -/
def execPpiWr1 (v : Byte) (s : State) : Answer :=
  .next ({ s with ppi := { port1Latch := v }, keyboard := { clockEnable := v.getLsbD 6 } }.returning .ok)

/-- PPI_RD2 (R225). -/
def execPpiRd2 (s : State) : Answer := .next (s.drawn.returning (.byte (port2Byte s)))

/-- PPI_WR2 (R226): fault Undefined. -/
def execPpiWr2 (_v : Byte) (s : State) : Answer := undefinedAccess .ppiPort2Write s

/-- PPI_RD3 (R227): the hardwired byte. -/
def execPpiRd3 (s : State) : Answer := .next (s.returning (.byte s.params.ppiConfigByte))

/-- PPI_WR3 (R228): UnsupportedConfigurationError unless the byte is the hardwired one. -/
def execPpiWr3 (v : Byte) (s : State) : Answer :=
  if v = s.params.ppiConfigByte then .next (s.returning .ok) else raise (.unsupportedConfiguration v) s

end Sys2Proof.Machine
end

