-- ==== Sys2Proof/Machine/Flags.lean ====
section
/-! DEFINITION. The rules for the per-channel booleans of spec/10_state.md R40 to R45: arming, the gate, the phases and
the output. -/

namespace Sys2Proof.Machine

/-- Arming on a complete load: in mode 0 `running` becomes the gate level; in the other modes nothing changes
(43_pit_data.md R171; 44_pit_counting.md R206). -/
def Channel.arm (x : Channel) : Channel :=
  if x.modeZero then { x with running := x.gate } else x

/-- A gate change: the level is stored, and in mode 0 `running` tracks it on every call (44_pit_counting.md R205, R206). -/
def Channel.setGate (x : Channel) (level : Bool) : Channel :=
  if x.modeZero then { x with gate := level, running := level } else { x with gate := level }

/-- The next latched read returns the other byte (43_pit_data.md R176). -/
def Channel.toggleLatchPhase (x : Channel) : Channel := { x with latchPhase := !x.latchPhase }

/-- The next low-then-high read returns the other byte (43_pit_data.md R179). -/
def Channel.toggleReadPhase (x : Channel) : Channel := { x with readPhase := !x.readPhase }

/-- The counter-latch command's effect on the latch: a snapshot, and the phase reset (42_pit_control.md R152). -/
def Channel.takeLatch (x : Channel) : Channel := { x with countLatch := x.counter, latchPhase := false }

/-- One tick of a channel: the output is cleared, the counter counts (44_pit_counting.md R200, R204). -/
def Channel.tick (x : Channel) : Channel := { x with counter := x.nextCount, output := false }

end Sys2Proof.Machine
end

