-- ==== Sys2Proof/Machine/PitControl.lean ====
section
/-! DEFINITION. Mode-word writes and the read of offset 3 (spec/42_pit_control.md R152 to R158), and the PIT's
construction (R150). -/

namespace Sys2Proof.Machine

/-- The mode word is one the policy `refuse` does not admit (44_pit_counting.md R207). -/
def refusesMode (p : Params) (v : Byte) : Bool :=
  p.policy == .refuse && mField v != 0

/-- A mode-word write that selects channel `c`: the full byte becomes the control word, and `effect` is what the row adds;
under `refuse` a nonzero operating mode is refused first (42_pit_control.md R152 to R157; 44_pit_counting.md R207). -/
def writeModeWord (c : Chan) (v : Byte) (effect : Channel → Channel) (s : State) : Answer :=
  if refusesMode s.params v then refuseForm (.modeWord v) s
  else .next ((s.setChannel c (effect { s.channel c with controlWord := v })).returning .ok)

/-- PIT_CW_SC3 (R156): InvalidModeError with the byte, whatever its other bits. -/
def execPitCwSc3 (am : BitVec 2) (m : BitVec 3) (bcd : BitVec 1) (s : State) : Answer :=
  raise (.invalidModeWord (modeByte 3 am m bcd)) s

/-- PIT_CW_LATCH (R152): the control word, the snapshot of the counter, the latch phase reset. -/
def execPitCwLatch (c : Chan) (m : BitVec 3) (bcd : BitVec 1) (s : State) : Answer :=
  writeModeWord c (modeByte c.bits 0 m bcd) Channel.takeLatch s

/-- PIT_CW_SET_LSB (R153): the control word only. -/
def execPitCwSetLsb (c : Chan) (m : BitVec 3) (bcd : BitVec 1) (s : State) : Answer :=
  writeModeWord c (modeByte c.bits 1 m bcd) id s

/-- PIT_CW_SET_MSB (R154): the control word only. -/
def execPitCwSetMsb (c : Chan) (m : BitVec 3) (bcd : BitVec 1) (s : State) : Answer :=
  writeModeWord c (modeByte c.bits 2 m bcd) id s

/-- PIT_CW_SET_LSBMSB (R155): the control word only; neither byte phase is reset. -/
def execPitCwSetLsbMsb (c : Chan) (m : BitVec 3) (bcd : BitVec 1) (s : State) : Answer :=
  writeModeWord c (modeByte c.bits 3 m bcd) id s

/-- PIT_RD_CW (R158): fault Undefined. -/
def execPitRdCw (s : State) : Answer := undefinedAccess .pitOffset3Read s

/-- PIT_CONSTRUCT (R150): the channel file is zeroed and PIT_TICK appended to the TICK listeners. The base is the
parameter `PIT_BASE`. A PIT that exists is not constructed again (70_reset_and_hazards.md R270; notes/assumptions/14.md). -/
def execPitConstruct (s : State) : Answer :=
  if s.pitExists then .refused .pitAlreadyConstructed
  else .next ({ s with pitExists := true, pit := Pit.zero, clock := s.clock.subscribe .tick .pitTick }.returning .ok)

end Sys2Proof.Machine
end

