-- ==== Sys2Proof/Machine/PitData.lean ====
section
/-! DEFINITION. Data-port writes and reads of a PIT channel (spec/43_pit_data.md R172 to R179). Each meaning is that of its
row; which row a transaction is was decided by the stored access mode when it was decoded (30_encoding.md R87). -/

namespace Sys2Proof.Machine

/-- A data write that leaves channel `c` as `x`. -/
def storeChannel (c : Chan) (x : Channel) (s : State) : Answer :=
  .next ((s.setChannel c x).returning .ok)

/-- A data read that returns `b` and leaves channel `c` as `x`. -/
def loadChannel (c : Chan) (x : Channel) (b : Byte) (s : State) : Answer :=
  .next ((s.setChannel c x).returning (.byte b))

/-- PIT_WR_DATA_AM0 (R172): InvalidModeError with the channel and its access mode. -/
def execPitWrDataAm0 (c : Chan) (_v : Byte) (s : State) : Answer :=
  raise (.invalidAccessMode c .latch) s

/-- PIT_WR_DATA_LSB (R173): the low byte is replaced, and the write arms. -/
def execPitWrDataLsb (c : Chan) (v : Byte) (s : State) : Answer :=
  let x := s.channel c
  storeChannel c { x with counter := withLo x.counter (writeByte x.bcd v) }.arm s

/-- PIT_WR_DATA_MSB (R174): the high byte is replaced, and the write arms. -/
def execPitWrDataMsb (c : Chan) (v : Byte) (s : State) : Answer :=
  let x := s.channel c
  storeChannel c { x with counter := withHi x.counter (writeByte x.bcd v) }.arm s

/-- PIT_WR_DATA_LSBMSB (R175): the low byte at the first write, the high byte at the second, which arms. -/
def execPitWrDataLsbMsb (c : Chan) (v : Byte) (s : State) : Answer :=
  let x := s.channel c
  if x.writePhase then
    storeChannel c { x with counter := withHi x.counter (writeByte x.bcd v), writePhase := false }.arm s
  else
    storeChannel c { x with counter := withLo x.counter (writeByte x.bcd v), writePhase := true } s

/-- PIT_RD_LATCHED (R176): a byte of the latch, by the latch phase, which toggles. -/
def execPitRdLatched (c : Chan) (s : State) : Answer :=
  let x := s.channel c
  loadChannel c x.toggleLatchPhase (phaseByte x.latchPhase x.countLatch) s

/-- PIT_RD_LSB (R177): the low byte of the live counter. -/
def execPitRdLsb (c : Chan) (s : State) : Answer :=
  .next (s.returning (.byte (lo (s.channel c).counter)))

/-- PIT_RD_MSB (R178): the high byte of the live counter. -/
def execPitRdMsb (c : Chan) (s : State) : Answer :=
  .next (s.returning (.byte (hi (s.channel c).counter)))

/-- PIT_RD_LSBMSB (R179): a byte of the live counter, by the read phase, which toggles. -/
def execPitRdLsbMsb (c : Chan) (s : State) : Answer :=
  let x := s.channel c
  loadChannel c x.toggleReadPhase (phaseByte x.readPhase x.counter) s

end Sys2Proof.Machine
end

