-- ==== Sys2Proof/Machine/Ports.lean ====
section
/-! DEFINITION. `read(addr)` and `write(addr, v)` of the PIT and of the PeripheralInterface as AddressableDevices
(spec/42_pit_control.md R151; 45_peripheral_interface.md R220), and the direct calls outside their range (R159, R229). -/

namespace Sys2Proof.Machine

/-- A write of byte `v` to PIT offset 3 (30_encoding.md R88). -/
def pitModeWrite (v : Byte) (s : State) : Answer :=
  match Chan.ofBits (scField v) with
  | none => execPitCwSc3 (amField v) (mField v) (bcdField v) s
  | some c =>
    match AccessMode.ofBits (amField v) with
    | .latch => execPitCwLatch c (mField v) (bcdField v) s
    | .lsb => execPitCwSetLsb c (mField v) (bcdField v) s
    | .msb => execPitCwSetMsb c (mField v) (bcdField v) s
    | .lsbMsb => execPitCwSetLsbMsb c (mField v) (bcdField v) s

/-- A write of byte `v` to the data port of channel `c`, by the stored access mode (30_encoding.md R87, R88). -/
def pitDataWrite (c : Chan) (v : Byte) (s : State) : Answer :=
  match (s.channel c).am with
  | .latch => execPitWrDataAm0 c v s
  | .lsb => execPitWrDataLsb c v s
  | .msb => execPitWrDataMsb c v s
  | .lsbMsb => execPitWrDataLsbMsb c v s

/-- A read of the data port of channel `c`, by the stored access mode (30_encoding.md R87, R88). -/
def pitDataRead (c : Chan) (s : State) : Answer :=
  match (s.channel c).am with
  | .latch => execPitRdLatched c s
  | .lsb => execPitRdLsb c s
  | .msb => execPitRdMsb c s
  | .lsbMsb => execPitRdLsbMsb c s

/-- The PIT's `read` and `write` (42_pit_control.md R151): the offset is checked first (60_exceptions.md R251). -/
def pitAccess (acc : Access) (s : State) : Answer :=
  if inPorts s.params.pitBase acc.addr then
    match acc, Chan.ofBits (BitVec.ofNat 2 (acc.addr - s.params.pitBase)) with
    | .read _, some c => pitDataRead c s
    | .read _, none => execPitRdCw s
    | .write _ v, some c => pitDataWrite c v s
    | .write _ v, none => pitModeWrite v s
  else raise (.addressRange acc.addr) s

/-- The PeripheralInterface's `read` and `write` (30_encoding.md R94; 45_peripheral_interface.md R220, R229). -/
def ppiAccess (acc : Access) (s : State) : Answer :=
  if inPorts s.params.ppiBase acc.addr then
    match acc, acc.addr - s.params.ppiBase with
    | .read _, 0 => execPpiRd0 s
    | .read _, 1 => execPpiRd1 s
    | .read _, 2 => execPpiRd2 s
    | .read _, _ => execPpiRd3 s
    | .write _ v, 0 => execPpiWr0 v s
    | .write _ v, 1 => execPpiWr1 v s
    | .write _ v, 2 => execPpiWr2 v s
    | .write _ v, _ => execPpiWr3 v s
  else raise (.addressRange acc.addr) s

/-- PIT_BAD_OFFSET (42_pit_control.md R159): a direct call of the PIT. Outside the four ports it raises AddressRangeError;
an address inside them is no PIT_BAD_OFFSET, and the call is the port's (notes/assumptions/17.md). -/
def execPitBadOffset (acc : Access) (s : State) : Answer := pitAccess acc s

/-- PPI_BAD_OFFSET (45_peripheral_interface.md R229): a direct call of the PeripheralInterface, as for the PIT. -/
def execPpiBadOffset (acc : Access) (s : State) : Answer := ppiAccess acc s

end Sys2Proof.Machine
end

