-- ==== Sys2Proof/Machine/Bus.lean ====
section
/-! DEFINITION. The MemoryBus (spec/41_bus.md R120 to R130): registration, and the routing of reads and writes. -/

namespace Sys2Proof.Machine

/-- Two ranges `[base, base+size)` intersect (R122). -/
def overlaps (d e : BusEntry) : Bool :=
  decide (d.base < e.base + e.size) && decide (e.base < d.base + d.size)

/-- `check_config`: the base is not negative and the size at least 1 (R123). -/
def BusEntry.configOk (d : BusEntry) : Bool := decide (0 ≤ d.base) && decide (1 ≤ d.size)

/-- The first registered device whose range contains the address (R126; at most one does). -/
def lookup (bus : List BusEntry) (addr : Nat) : Option BusEntry :=
  bus.find? fun e => inRange e.base e.size addr

/-- The device operation an access is delivered to (R124, R125): its errors and faults are the bus operation's (R129). -/
def deviceAccess (d : DeviceRef) (acc : Access) (s : State) : Answer :=
  match d, acc with
  | .ram n, .read addr => execRamRead n addr s
  | .ram n, .write addr v => execRamWrite n addr v s
  | .rom n, .read addr => execRomRead n addr s
  | .rom n, .write addr v => execRomWrite n addr v s
  | .pit, acc => pitAccess acc s
  | .ppi, acc => ppiAccess acc s

/-- BUS_REGISTER (R122): a bad configuration is refused before an overlap is looked for (60_exceptions.md R251); the overlap
is reported with the first registered device that intersects. -/
def execBusRegister (d : DeviceRef) (s : State) : Answer :=
  match s.deviceEntry d with
  | none => .refused (.noSuchDevice d)
  | some x =>
    if x.configOk then
      match s.bus.find? (overlaps x) with
      | some e => raise (.overlap x e) s
      | none => .next ({ s with bus := s.bus ++ [x] }.returning .ok)
    else refuseForm (.deviceConfiguration x) s

/-- BUS_READ (R124): open bus reads 0x00 (R127). -/
def execBusRead (addr : Nat) (s : State) : Answer :=
  match lookup s.bus addr with
  | none => .next (s.returning (.byte 0))
  | some e => deviceAccess e.device (.read addr) s

/-- BUS_WRITE (R125): an open-bus write does nothing (R128). -/
def execBusWrite (addr : Nat) (v : Byte) (s : State) : Answer :=
  match lookup s.bus addr with
  | none => .next (s.returning .ok)
  | some e => deviceAccess e.device (.write addr v) s

end Sys2Proof.Machine
end

