-- ==== Sys2Proof/Machine/PitCounting.lean ====
section
/-! DEFINITION. The PIT's tick handler and the gate inputs (spec/44_pit_counting.md R200 to R210). -/

namespace Sys2Proof.Machine

/-- The tick handler on the channel file: every output cleared, every running channel with a nonzero counter
decremented; no channel reads another (R200, R210). -/
def Pit.tick (p : Pit) : Pit := { ch0 := p.ch0.tick, ch1 := p.ch1.tick, ch2 := p.ch2.tick }

/-- The machine after the PIT's handler has run (R200). -/
def State.pitTick (s : State) : State := { s with pit := s.pit.tick }

/-- PIT_TICK (R200). -/
def execPitTick (s : State) : Answer := .next (s.pitTick.returning .ok)

/-- PIT_SET_GATE (R205, R206). -/
def execPitSetGate (c : Chan) (level : Bool) (s : State) : Answer :=
  .next ((s.setChannel c ((s.channel c).setGate level)).returning .ok)

end Sys2Proof.Machine
end

