-- ==== Sys2Proof/Machine/Clock.lean ====
section
/-! DEFINITION. The HardwareClock's operations (spec/40_clock.md R100 to R114). -/

namespace Sys2Proof.Machine

/-- What a listener does when it is invoked: the PIT's handler counts, a collaborator's listener is its trace event alone
(R110). -/
def runListener (l : Listener) (s : State) : State :=
  match l with
  | .pitTick => s.pitTick
  | .named _ => s

/-- One listener invocation: its trace event, then its body, to completion (R104, R112). -/
def invoke (kind : EventKind) (l : Listener) (s : State) : State :=
  runListener l { s with trace := s.trace ++ [{ kind := kind, listener := l, totalTicks := s.clock.totalTicks }] }

/-- Invoke the listeners of a list, in list order (R104). -/
def invokeAll (kind : EventKind) : List Listener → State → State
  | [], s => s
  | l :: rest, s => invokeAll kind rest (invoke kind l s)

/-- `notify(kind)` (R104). -/
def notify (kind : EventKind) (s : State) : State := invokeAll kind (s.clock.listeners kind) s

/-- The phase after a tick: 4 is stored as 0 (R106; 90_conflicts.md C3). -/
def nextPhase (p : Fin 4) : Fin 4 := if p = 3 then 0 else p + 1

/-- `total_ticks` and `phase_counter` advance (R106). -/
def Clock.advance (k : Clock) : Clock :=
  { k with totalTicks := k.totalTicks + 1, phaseCounter := nextPhase k.phaseCounter }

/-- The DOUBLE and QUAD notifications of a tick that found the phase counter at `p`: DOUBLE when it reaches 2, DOUBLE
and then QUAD when it reaches 4 (R106). -/
def notifyPhase (p : Fin 4) (s : State) : State :=
  if p.val + 1 = 2 then notify .double s
  else if p.val + 1 = 4 then notify .quad (notify .double s)
  else s

/-- One base tick: TICK listeners, the increments, then DOUBLE and QUAD (R106). -/
def State.baseTick (s : State) : State :=
  let s1 := notify .tick s
  notifyPhase s1.clock.phaseCounter { s1 with clock := s1.clock.advance }

/-- CLK_CONSTRUCT (R100): InvalidTickPeriod when the period is not positive. A clock that exists is not constructed again
(70_reset_and_hazards.md R270; 40_clock.md R101; notes/assumptions/14.md). -/
def execClkConstruct (period : Period) (s : State) : Answer :=
  if periodPositive period = false then raise (.invalidTickPeriod period) s
  else if s.clockExists then .refused .clockAlreadyConstructed
  else .next ({ s with clockExists := true, clock := Clock.constructed period }.returning .ok)

/-- CLK_SUBSCRIBE (R102); a re-entrant listener is refused (R110, 60_exceptions.md R248; notes/assumptions/13.md). -/
def execClkSubscribe (kind : EventKind) (listener : Callback) (s : State) : Answer :=
  match listener with
  | .admitted l => .next ({ s with clock := s.clock.subscribe kind l }.returning .ok)
  | .reentrant name => refuseForm (.reentrantListener kind name) s

/-- CLK_START (R103). -/
def execClkStart (s : State) : Answer :=
  .next ({ s with clock := { s.clock with running := true } }.returning .ok)

/-- CLK_STOP (R105). -/
def execClkStop (s : State) : Answer :=
  .next ({ s with clock := { s.clock with running := false } }.returning .ok)

/-- CLK_TICK (R106): enabled only while the clock is running; otherwise nothing happens (R111; notes/assumptions/15.md). -/
def execClkTick (s : State) : Answer :=
  if s.clock.running then .next (s.baseTick.returning .ok) else .next (s.returning .notEnabled)

/-- CLK_TOTAL_TICKS (R109). -/
def execClkTotalTicks (s : State) : Answer := .next (s.returning (.count s.clock.totalTicks))

end Sys2Proof.Machine
end

