-- ==== Sys2Proof/Machine/Dispatch.lean ====
section
/-! DEFINITION. The dispatch: one arm per constructor of `Instr`, in the order of spec/opcode_table.json. -/

namespace Sys2Proof.Machine

def exec (i : Instr) (s : State) : Host.Outcome State Fault Refusal :=
  match i with
  | .pitCwSc3 am m bcd => Sys2Proof.Machine.execPitCwSc3 am m bcd s
  | .pitCwLatch c m bcd => Sys2Proof.Machine.execPitCwLatch c m bcd s
  | .pitCwSetLsb c m bcd => Sys2Proof.Machine.execPitCwSetLsb c m bcd s
  | .pitCwSetMsb c m bcd => Sys2Proof.Machine.execPitCwSetMsb c m bcd s
  | .pitCwSetLsbMsb c m bcd => Sys2Proof.Machine.execPitCwSetLsbMsb c m bcd s
  | .pitWrDataAm0 c v => Sys2Proof.Machine.execPitWrDataAm0 c v s
  | .pitWrDataLsb c v => Sys2Proof.Machine.execPitWrDataLsb c v s
  | .pitWrDataMsb c v => Sys2Proof.Machine.execPitWrDataMsb c v s
  | .pitWrDataLsbMsb c v => Sys2Proof.Machine.execPitWrDataLsbMsb c v s
  | .pitRdLatched c => Sys2Proof.Machine.execPitRdLatched c s
  | .pitRdLsb c => Sys2Proof.Machine.execPitRdLsb c s
  | .pitRdMsb c => Sys2Proof.Machine.execPitRdMsb c s
  | .pitRdLsbMsb c => Sys2Proof.Machine.execPitRdLsbMsb c s
  | .pitRdCw => Sys2Proof.Machine.execPitRdCw s
  | .pitBadOffset acc => Sys2Proof.Machine.execPitBadOffset acc s
  | .pitTick => Sys2Proof.Machine.execPitTick s
  | .pitSetGate c level => Sys2Proof.Machine.execPitSetGate c level s
  | .pitConstruct => Sys2Proof.Machine.execPitConstruct s
  | .clkConstruct period => Sys2Proof.Machine.execClkConstruct period s
  | .clkSubscribe kind listener => Sys2Proof.Machine.execClkSubscribe kind listener s
  | .clkStart => Sys2Proof.Machine.execClkStart s
  | .clkStop => Sys2Proof.Machine.execClkStop s
  | .clkTick => Sys2Proof.Machine.execClkTick s
  | .clkTotalTicks => Sys2Proof.Machine.execClkTotalTicks s
  | .busRegister d => Sys2Proof.Machine.execBusRegister d s
  | .busRead addr => Sys2Proof.Machine.execBusRead addr s
  | .busWrite addr v => Sys2Proof.Machine.execBusWrite addr v s
  | .ramConstruct base size => Sys2Proof.Machine.execRamConstruct base size s
  | .ramRead n addr => Sys2Proof.Machine.execRamRead n addr s
  | .ramWrite n addr v => Sys2Proof.Machine.execRamWrite n addr v s
  | .romConstruct base bytes => Sys2Proof.Machine.execRomConstruct base bytes s
  | .romRead n addr => Sys2Proof.Machine.execRomRead n addr s
  | .romWrite n addr v => Sys2Proof.Machine.execRomWrite n addr v s
  | .ppiRd0 => Sys2Proof.Machine.execPpiRd0 s
  | .ppiWr0 v => Sys2Proof.Machine.execPpiWr0 v s
  | .ppiRd1 => Sys2Proof.Machine.execPpiRd1 s
  | .ppiWr1 v => Sys2Proof.Machine.execPpiWr1 v s
  | .ppiRd2 => Sys2Proof.Machine.execPpiRd2 s
  | .ppiWr2 v => Sys2Proof.Machine.execPpiWr2 v s
  | .ppiRd3 => Sys2Proof.Machine.execPpiRd3 s
  | .ppiWr3 v => Sys2Proof.Machine.execPpiWr3 v s
  | .ppiBadOffset acc => Sys2Proof.Machine.execPpiBadOffset acc s

end Sys2Proof.Machine
end

