-- ==== Sys2Proof/Machine/Fetch.lean ====
section
/-! DEFINITION. What the machine performs next, and whether it may go on: the model's scheduling of the agents' atomic steps
(spec/00_scope.md R5; 20_memory.md R63; notes/assumptions/1.md and 2.md). -/

namespace Sys2Proof.Machine

/-- What the next step is. -/
inductive Fetched where
  /-- Operation `i` is performed, in the state `s`, from which the request that asked for it is gone. -/
  | run (i : Instr) (s : State)
  /-- The next request is no operation of the block. -/
  | bad (e : DecodeError)
  /-- No agent has a step: nothing is pending and the clock is stopped. -/
  | idle
deriving DecidableEq, Repr

/-- What the decoder reads of the machine (30_encoding.md R87). -/
def State.decodeCtx (s : State) : DecodeCtx where
  am0 := s.pit.ch0.am
  am1 := s.pit.ch1.am
  am2 := s.pit.ch2.am
  pitBase := s.params.pitBase
  ppiBase := s.params.ppiBase

/-- The machine stops here: a record in `faults` (92_eei_decisions.md D26), or a fatal error returned by the last operation
(60_exceptions.md R243, R245, R250). -/
def haltReason (s : State) : Option Fault :=
  match s.faults, s.result with
  | r :: _, _ => some (.stickyFault r)
  | [], .error e => if e.fatal then some (.fatalConfiguration e) else none
  | [], _ => none

/-- The next pending request, decoded as the machine stands; with nothing pending, the clock agent's step while it is
enabled (40_clock.md R111). -/
def fetch (s : State) : Fetched :=
  match s.pending with
  | [] => if s.clock.running then .run .clkTick s else .idle
  | r :: rest =>
    match decode s.decodeCtx r with
    | .ok i => .run i { s with pending := rest }
    | .error e => .bad e

/-- The machine with one more request, before those already pending. -/
def State.enqueue (s : State) (r : Request) : State := { s with pending := r :: s.pending }

end Sys2Proof.Machine
end

