-- ==== Sys2Proof/Machine/Step.lean ====
section
/-! DEFINITION. One step of the machine: the atomic step of the agent whose turn it is (spec/20_memory.md R63;
notes/assumptions/1.md). -/

namespace Sys2Proof.Machine

/-- One step. It stops where the machine may not go on, performs the operation that comes next, refuses a request that is
none, and changes nothing when no agent has a step. -/
def step (s : State) : Host.Outcome State Fault Refusal :=
  match haltReason s with
  | some f => .fault f
  | none =>
    match fetch s with
    | .run i s' => exec i s'
    | .bad e => .refused (.undecodable e)
    | .idle => .next s

/-- The machine about to perform the operation of an opcode-table word: the word as the first pending request
(notes/assumptions/2.md, notes/assumptions/3.md). -/
def State.withFetchWord (s : State) (nbits w : Nat) : State := s.enqueue (tableRequest nbits w)

end Sys2Proof.Machine
end

