-- ==== Sys2Proof/Safety.lean ====
section
/-! DEFINITION. The terms claims are stated in: the device operation an operation performs, the real number a period is,
the invariants of the machine, the boot sequence, and runs of operations. -/

namespace Sys2Proof

/-! ## Periods -/

/-- The real number `r` is the period: an irrational one is named up to its sign (10_state.md R23; notes/assumptions/9.md). -/
def Period.Names (p : Period) (r : ℝ) : Prop :=
  match p with
  | .rational q => r = (q : ℝ)
  | .irrational positive _ => Irrational r ∧ (0 < r ↔ positive = true)

/-! ## Kinds of operations -/

/-- Operation `i` is a mode-word write that selects channel `c` (42_pit_control.md R152 to R155). -/
def Instr.writesModeWord (i : Instr) (c : Chan) : Bool :=
  match i with
  | .pitCwLatch c' _ _ => c' == c
  | .pitCwSetLsb c' _ _ => c' == c
  | .pitCwSetMsb c' _ _ => c' == c
  | .pitCwSetLsbMsb c' _ _ => c' == c
  | _ => false

/-- Operation `i` is a data write to channel `c` (43_pit_data.md R173 to R175). -/
def Instr.writesData (i : Instr) (c : Chan) : Bool :=
  match i with
  | .pitWrDataLsb c' _ => c' == c
  | .pitWrDataMsb c' _ => c' == c
  | .pitWrDataLsbMsb c' _ => c' == c
  | _ => false

/-- Operation `i` runs the PIT's tick handler (44_pit_counting.md R200; 40_clock.md R106). -/
def Instr.ticks (i : Instr) : Bool :=
  match i with
  | .pitTick => true
  | .clkTick => true
  | _ => false

/-- The channel an operation of one channel is on, if it is one (10_state.md R32). -/
def Instr.onChannel? (i : Instr) : Option Chan :=
  match i with
  | .pitCwLatch c _ _ => some c
  | .pitCwSetLsb c _ _ => some c
  | .pitCwSetMsb c _ _ => some c
  | .pitCwSetLsbMsb c _ _ => some c
  | .pitWrDataAm0 c _ => some c
  | .pitWrDataLsb c _ => some c
  | .pitWrDataMsb c _ => some c
  | .pitWrDataLsbMsb c _ => some c
  | .pitRdLatched c => some c
  | .pitRdLsb c => some c
  | .pitRdMsb c => some c
  | .pitRdLsbMsb c => some c
  | .pitSetGate c _ => some c
  | _ => none

end Sys2Proof

namespace Sys2Proof.Machine

/-! ## What an operation performs -/

/-- The table's operation that an access delivered to a device is (spec/41_bus.md R124, R125; 30_encoding.md R88, R94). -/
def State.deviceOp (s : State) (d : DeviceRef) (acc : Access) : Instr :=
  match d, acc with
  | .ram n, .read addr => .ramRead n addr
  | .ram n, .write addr v => .ramWrite n addr v
  | .rom n, .read addr => .romRead n addr
  | .rom n, .write addr v => .romWrite n addr v
  | .pit, acc => decodePitDirect s.decodeCtx acc
  | .ppi, acc => decodePpiDirect s.decodeCtx acc

/-- The operation `i` performs once the bus has routed it: a bus access that a device owns is that device's operation,
a direct call the port's; every other operation is itself. -/
def State.performed (s : State) (i : Instr) : Instr :=
  match i with
  | .busRead addr =>
    match lookup s.bus addr with
    | some e => s.deviceOp e.device (.read addr)
    | none => i
  | .busWrite addr v =>
    match lookup s.bus addr with
    | some e => s.deviceOp e.device (.write addr v)
    | none => i
  | .pitBadOffset acc => decodePitDirect s.decodeCtx acc
  | .ppiBadOffset acc => decodePpiDirect s.decodeCtx acc
  | _ => i

/-! ## Invariants -/

/-- Between steps `phase_counter = total_ticks mod 4` (40_clock.md R108). -/
def PhaseTracksTotal (s : State) : Prop :=
  s.clock.phaseCounter.val = s.clock.totalTicks % 4

/-- The tick period is positive (10_state.md R23). -/
def PeriodPositive (s : State) : Prop := ∀ r : ℝ, s.clock.tickPeriod.Names r → 0 < r

/-- Two ranges share no address (10_state.md R28). -/
def BusEntry.Disjoint (d e : BusEntry) : Prop :=
  ∀ addr : Nat, ¬ (inRange d.base d.size addr = true ∧ inRange e.base e.size addr = true)

/-- Every registered range is one `check_config` admits, and no two intersect (10_state.md R28; 41_bus.md R122, R123). -/
def RangesDisjoint (s : State) : Prop :=
  (∀ e ∈ s.bus, 0 ≤ e.base ∧ 1 ≤ e.size) ∧ s.bus.Pairwise BusEntry.Disjoint

/-- Every registered device exists, and its range is the one it was registered with (41_bus.md R121, R130). -/
def BusMatchesDevices (s : State) : Prop :=
  ∀ e ∈ s.bus, s.deviceEntry e.device = some e

/-- Every RAM device's memory has the canonical form, and lists only offsets inside the device (10_state.md R29). -/
def MemoriesCanonical (s : State) : Prop :=
  ∀ d ∈ s.rams, Memory.wf d.mem = true ∧ ∀ cell ∈ d.mem, (cell.1 : Int) < d.size

/-- No channel's output is ever raised (44_pit_counting.md R204). -/
def OutputsLow (s : State) : Prop := ∀ c, (s.channel c).output = false

/-- Under the policy `refuse` every channel is in mode 0 (44_pit_counting.md R207). -/
def RefuseKeepsModeZero (s : State) : Prop :=
  s.params.policy = .refuse → ∀ c, (s.channel c).controlWord.extractLsb' 1 3 = 0

/-- The stored SC field is the channel's own number, or the control word has not been written (10_state.md R37). -/
def SelectFieldIsOwn (s : State) : Prop :=
  ∀ c, (s.channel c).controlWord.extractLsb' 6 2 = c.bits ∨ (s.channel c).controlWord = 0

/-! ## The boot sequence -/

/-- The RAM and ROM devices of the map constructed, in its order (70_reset_and_hazards.md R273, step 2). -/
def deviceOps : List MapEntry → List Instr
  | [] => []
  | .ram base size :: rest => .ramConstruct base size :: deviceOps rest
  | .rom base bytes :: rest => .romConstruct base bytes :: deviceOps rest
  | .pit :: rest => deviceOps rest
  | .ppi :: rest => deviceOps rest

/-- Steps 1 and 2 of the boot (R273): the clock, then every device; the PIT, which every block has, last. The
PeripheralInterface has no operation that constructs it. -/
def constructOps (b : BootConfig) : List Instr :=
  .clkConstruct b.tickPeriod :: deviceOps b.deviceMap ++ [.pitConstruct]

/-- Step 3: every device registered, in the order of the device map (R273). -/
def registerOps (nRam nRom : Nat) : List MapEntry → List Instr
  | [] => []
  | .ram _ _ :: rest => .busRegister (.ram nRam) :: registerOps (nRam + 1) nRom rest
  | .rom _ _ :: rest => .busRegister (.rom nRom) :: registerOps nRam (nRom + 1) rest
  | .pit :: rest => .busRegister .pit :: registerOps nRam nRom rest
  | .ppi :: rest => .busRegister .ppi :: registerOps nRam nRom rest

/-- The boot sequence, steps 1 to 6 in order (70_reset_and_hazards.md R273). -/
def bootOps (b : BootConfig) : List Instr :=
  constructOps b ++ registerOps 0 0 b.deviceMap
    ++ b.listeners.map (fun e => .clkSubscribe e.1 (.admitted e.2))
    ++ b.gates.map (fun c => .pitSetGate c true) ++ [.clkStart]

/-! ## Runs -/

/-- The operations of a list, one after another, as far as each answers a next state and returns no error and no Refused
outcome. -/
def performAll : List Instr → State → Answer
  | [], s => .next s
  | i :: rest, s =>
    match exec i s with
    | .next t => if t.result = .ok then performAll rest t else .next t
    | .fault f => .fault f
    | .refused r => .refused r

/-- `n` runs of the PIT's tick handler, by the operation PIT_TICK. -/
def tickTimes : Nat → State → Answer
  | 0, s => .next s
  | n + 1, s =>
    match exec .pitTick s with
    | .next t => tickTimes n t
    | .fault f => .fault f
    | .refused r => .refused r

/-- `Undisturbed c k s t`: operations that answered a next state lead from `s` to `t`; none of them performed a mode-word
write of channel `c`; exactly `k` of them performed a latched read of channel `c`
(42_pit_control.md R160). -/
inductive Undisturbed (c : Chan) : Nat → State → State → Prop where
  | refl (s : State) : Undisturbed c 0 s s
  | read {k : Nat} {s t u : State} (i : Instr) (h : Undisturbed c k s t) (he : exec i t = .next u)
      (hr : t.performed i = .pitRdLatched c) : Undisturbed c (k + 1) s u
  | other {k : Nat} {s t u : State} (i : Instr) (h : Undisturbed c k s t) (he : exec i t = .next u)
      (hw : (t.performed i).writesModeWord c = false)
      (hr : t.performed i ≠ .pitRdLatched c) : Undisturbed c k s u

end Sys2Proof.Machine
end

