-- ==== Sys2Proof/Certificates/Slice0/Obligations.lean ====
section
/-! DEFINITION. The statements for the provers. Each docstring names the rule or the sections of spec/ it formalises.
Bit fields are written as `extractLsb' <lowest bit> <width>`, so that a reader can hold them beside 00_scope.md R8. -/

open Sys2Proof Sys2Proof.Machine

/-! ## Encoding and decoding (30_encoding.md) -/

/-- Every operation an agent can issue, encoded and decoded, is itself with every operand (30_encoding.md sections 1 to 7).
The packing is the spec's own (decision D32). -/
def Obligations.DecodeOfEncodeIsIdentity : Prop :=
  ∀ (ctx : DecodeCtx) (i : Instr), i.wf ctx = true → decode ctx (encode i) = .ok i

/-- Each of the 2048 transaction words of either port format is an operation an agent can issue, and encodes back to the
word, the ignored data bits of a read being 0 (30_encoding.md sections 1, 2 and 7; decision D32). -/
def Obligations.TransactionWordsDecodeAndReencode : Prop :=
  ∀ (ctx : DecodeCtx) (w : PortWord),
    (∃ i, decode ctx (.ptw w.toNat) = .ok i ∧ i.wf ctx = true ∧
      encode i = .ptw (if w.extractLsb' 10 1 = 1 then w.toNat else (w &&& 0x700).toNat)) ∧
    (∃ i, decode ctx (.ppw w.toNat) = .ok i ∧ i.wf ctx = true ∧
      encode i = .ppw (if w.extractLsb' 10 1 = 1 then w.toNat else (w &&& 0x700).toNat))

/-- The mode-word rows and the offset-3 read are the words their match and mask in opcode_table.json say, with SC = 3
first (30_encoding.md section 2; opcode_table.json; decision D42). -/
def Obligations.ControlWordRowsOfTheTable : Prop :=
  ∀ (ctx : DecodeCtx) (w : PortWord) (i : Instr), decode ctx (.ptw w.toNat) = .ok i →
    ((∃ a m b, i = .pitCwSc3 a m b) ↔ w &&& 0x7C0 = 0x7C0) ∧
    ((∃ c m b, i = .pitCwLatch c m b) ↔ w &&& 0x730 = 0x700 ∧ w &&& 0x7C0 ≠ 0x7C0) ∧
    ((∃ c m b, i = .pitCwSetLsb c m b) ↔ w &&& 0x730 = 0x710 ∧ w &&& 0x7C0 ≠ 0x7C0) ∧
    ((∃ c m b, i = .pitCwSetMsb c m b) ↔ w &&& 0x730 = 0x720 ∧ w &&& 0x7C0 ≠ 0x7C0) ∧
    ((∃ c m b, i = .pitCwSetLsbMsb c m b) ↔ w &&& 0x730 = 0x730 ∧ w &&& 0x7C0 ≠ 0x7C0) ∧
    (i = .pitRdCw ↔ w &&& 0x700 = 0x300)

/-- A data-port transaction is the row that the channel's stored AM bits select, whatever the data bits of a read
(30_encoding.md section 2; the numbers of AM 1, 2, 3 are decision D3). -/
def Obligations.StoredAccessModeSelectsTheRow : Prop :=
  ∀ (s : State) (c : Chan) (v : Byte),
    let am := (s.channel c).controlWord.extractLsb' 4 2
    decode s.decodeCtx (.ptw (0x400 + 256 * c.bits.toNat + v.toNat)) =
      .ok (if am = 0 then .pitWrDataAm0 c v else if am = 1 then .pitWrDataLsb c v
        else if am = 2 then .pitWrDataMsb c v else .pitWrDataLsbMsb c v) ∧
    decode s.decodeCtx (.ptw (256 * c.bits.toNat + v.toNat)) =
      .ok (if am = 0 then .pitRdLatched c else if am = 1 then .pitRdLsb c
        else if am = 2 then .pitRdMsb c else .pitRdLsbMsb c)

/-- A few words written out from the encodings decode to the operations they stand for (30_encoding.md sections 1, 2, 7); the last
clause, that a 12-bit word is no operation and is refused by name, is the model's choice (notes/assumptions/2.md). -/
def Obligations.SampleWordsDecode : Prop :=
  let ctx : DecodeCtx := { am0 := .latch, am1 := .lsb, am2 := .lsbMsb, pitBase := 0x9000, ppiBase := 0xA000 }
  decode ctx (.ptw 0b11110100001) = .ok (.pitCwSetMsb .ch2 0 1) ∧
  decode ctx (.ptw 0b11100000000) = .ok (.pitCwLatch .ch0 0 0) ∧
  decode ctx (.ptw 0b11111000010) = .ok (.pitCwSc3 0 1 0) ∧
  decode ctx (.ptw 0b10000000101) = .ok (.pitWrDataAm0 .ch0 0x05) ∧
  decode ctx (.ptw 0b10110101111) = .ok (.pitWrDataLsb .ch1 0xAF) ∧
  decode ctx (.ptw 0b01000000000) = .ok (.pitRdLsbMsb .ch2) ∧
  decode ctx (.ptw 0b01100000000) = .ok .pitRdCw ∧
  decode ctx (.ppw 0b10111000000) = .ok (.ppiWr1 0xC0) ∧
  decode ctx (.ppw 0b01000000000) = .ok .ppiRd2 ∧
  decode ctx (.pitDirect (.write 0x9004 0)) = .ok (.pitBadOffset (.write 0x9004 0)) ∧
  decode ctx (.ptw 0b100000000000) = .error (.notPackable 0x800)

/-! ## The step (20_memory.md section 2; notes/assumptions/1.md, 11.md, 12.md) -/

/-- While the machine may go on, a step performs the next pending request, decoded as the machine stands, in the state
from which that request is gone (20_memory.md section 2; the schedule is the model's choice, notes/assumptions/1.md). -/
def Obligations.StepPerformsDecodedRequest : Prop :=
  ∀ (s : State) (r : Request) (rest : List Request) (i : Instr),
    s.faults = [] → (∀ e, s.result = .error e → e.fatal = false) →
    s.pending = r :: rest → decode s.decodeCtx r = .ok i →
    step s = exec i { s with pending := rest }

/-- The other steps: nothing pending, the clock agent ticks while the clock is running and nothing happens otherwise; a
request that is no operation is refused; a record in `faults`, or a fatal error returned by the last operation, stops the
machine (40_clock.md R111 and 92_eei_decisions.md D26 in the form of notes/assumptions/1.md, 2.md, 11.md, 12.md). -/
def Obligations.StepElsewhere : Prop :=
  ∀ s : State,
    (∀ r rest, s.faults = r :: rest → step s = .fault (.stickyFault r)) ∧
    (∀ e, s.faults = [] → s.result = .error e → e.code = 3 ∨ e.code = 5 → step s = .fault (.fatalConfiguration e)) ∧
    (s.faults = [] → (∀ e, s.result = .error e → e.code ≠ 3 ∧ e.code ≠ 5) →
      (s.pending = [] → s.clock.running = true → step s = exec .clkTick s) ∧
      (s.pending = [] → s.clock.running = false → step s = .next s) ∧
      (∀ r rest e, s.pending = r :: rest → decode s.decodeCtx r = .error e → step s = .refused (.undecodable e)))

/-! ## Whole-machine rules -/

/-- The bus adds nothing of its own: a bus access or a direct call does exactly what the device operation it performs
does, for the PIT and the PeripheralInterface the one the decode procedure gives (41_bus.md section 2, decision D36;
42_pit_control.md section 1). -/
def Obligations.BusDeliversTheDecodedOperation : Prop :=
  ∀ (i : Instr) (s : State), exec i s = exec (s.performed i) s

/-- An operation that returns an error has written nothing (60_exceptions.md section 2; decision D26). -/
def Obligations.ErrorsWriteNothing : Prop :=
  ∀ (i : Instr) (s t : State) (e : HwError),
    exec i s = .next t → t.result = .error e → t = s.returning (.error e)

/-- No operation removes a record from `faults`; an operation adds one exactly as it returns Undefined or Refused, and
then writes nothing else (60_exceptions.md section 2; decisions D26, D11, D34, D8, D13, D20). -/
def Obligations.FaultRecordsAreKept : Prop :=
  ∀ (i : Instr) (s t : State), exec i s = .next t →
    (∀ r ∈ s.faults, r ∈ t.faults) ∧
    (∀ r ∈ t.faults, r ∈ s.faults ∨
      ((∃ u, r = .undefined u ∧ t.result = .undefined u) ∨ (∃ f, r = .refused f ∧ t.result = .refused f))) ∧
    (∀ u, t.result = .undefined u → .undefined u ∈ t.faults ∧ { t with faults := s.faults } = s.returning (.undefined u)) ∧
    (∀ f, t.result = .refused f → .refused f ∈ t.faults ∧ { t with faults := s.faults } = s.returning (.refused f))

/-- Every operation completes: it answers a next state whenever the devices it names, and the registered ones, exist, and the
clock or the PIT it constructs does not (00_scope.md section 5; an operand naming a device that was never constructed is
notes/assumptions/18.md, a second construction notes/assumptions/14.md). -/
def Obligations.EveryOperationCompletes : Prop :=
  ∀ (i : Instr) (s : State), BusMatchesDevices s →
    (∀ d, i = .busRegister d → (s.deviceEntry d).isSome = true) →
    (∀ n a, i = .ramRead n a → n < s.rams.length) → (∀ n a v, i = .ramWrite n a v → n < s.rams.length) →
    (∀ n a, i = .romRead n a → n < s.roms.length) → (∀ n a v, i = .romWrite n a v → n < s.roms.length) →
    (∀ p, i = .clkConstruct p → s.clockExists = false) → (i = .pitConstruct → s.pitExists = false) →
    ∃ t, exec i s = .next t ∧ t.params = s.params ∧ t.pending = s.pending ∧ t.result ≠ .idle

/-! ## The bus and the memory devices (41_bus.md) -/

/-- R127 and R128: an address no registered device owns reads 0x00, and a write of it does nothing. -/
def Obligations.OpenBusIsTolerated : Prop :=
  ∀ (s : State) (addr : Nat) (v : Byte),
    (∀ e ∈ s.bus, ¬ (e.base ≤ (addr : Int) ∧ (addr : Int) < e.base + e.size)) →
    exec (.busRead addr) s = .next (s.returning (.byte 0x00)) ∧
    exec (.busWrite addr v) s = .next (s.returning .ok)

/-- R126: under the non-overlap invariant the lookup of an address is the one registered device whose range contains it,
or none if there is no such device. -/
def Obligations.LookupFindsTheOwner : Prop :=
  ∀ (s : State) (addr : Nat), RangesDisjoint s →
    (∀ e ∈ s.bus, e.base ≤ (addr : Int) → (addr : Int) < e.base + e.size → lookup s.bus addr = some e) ∧
    ((∀ e ∈ s.bus, ¬ (e.base ≤ (addr : Int) ∧ (addr : Int) < e.base + e.size)) → lookup s.bus addr = none)

/-- Property 1 of 95_test_vectors.md section 1: for any RAM registered on the bus and any address in its range, a write
and then a read gives the byte written, and the write changes no other byte of any RAM. -/
def Obligations.RamReadsBackThroughTheBus : Prop :=
  ∀ (s : State) (e : BusEntry) (n addr : Nat) (v : Byte),
    RangesDisjoint s → BusMatchesDevices s → e ∈ s.bus → e.device = .ram n →
    e.base ≤ (addr : Int) → (addr : Int) < e.base + e.size →
    ∃ t, exec (.busWrite addr v) s = .next t ∧ t.result = .ok ∧
      exec (.busRead addr) t = .next (t.returning (.byte v)) ∧
      t.bus = s.bus ∧ t.pit = s.pit ∧ t.clock = s.clock ∧ t.roms = s.roms ∧ t.rams.length = s.rams.length ∧
      ∀ (m : Nat) (d d' : Ram), s.rams[m]? = some d → t.rams[m]? = some d' →
        d'.base = d.base ∧ d'.size = d.size ∧
        ∀ j : Nat, (m = n → (j : Int) ≠ (addr : Int) - e.base) → ramByte m d'.mem j = ramByte m d.mem j

/-- R133: RAM_WRITE in range sets the byte at the offset and no other; out of range it raises. -/
def Obligations.RamWriteStoresOneByte : Prop :=
  ∀ (s : State) (n addr : Nat) (v : Byte) (d : Ram), s.rams[n]? = some d →
    (d.base ≤ (addr : Int) → (addr : Int) < d.base + d.size →
      ∃ m : Memory, exec (.ramWrite n addr v) s =
          .next ({ s with rams := s.rams.set n { d with mem := m } }.returning .ok) ∧
        (∀ j : Nat, (j : Int) = (addr : Int) - d.base → ramByte n m j = v) ∧
        (∀ j : Nat, (j : Int) ≠ (addr : Int) - d.base → ramByte n m j = ramByte n d.mem j)) ∧
    (¬ (d.base ≤ (addr : Int) ∧ (addr : Int) < d.base + d.size) →
      exec (.ramWrite n addr v) s = .next (s.returning (.error (.addressRange addr))))

/-- R132: RAM_READ in range returns the byte at the offset and writes nothing; out of range it raises. -/
def Obligations.RamReadReturnsTheByte : Prop :=
  ∀ (s : State) (n addr : Nat) (d : Ram), s.rams[n]? = some d →
    (∀ j : Nat, d.base ≤ (addr : Int) → (addr : Int) < d.base + d.size → (j : Int) = (addr : Int) - d.base →
      exec (.ramRead n addr) s = .next (s.returning (.byte (ramByte n d.mem j)))) ∧
    (¬ (d.base ≤ (addr : Int) ∧ (addr : Int) < d.base + d.size) →
      exec (.ramRead n addr) s = .next (s.returning (.error (.addressRange addr))))

/-- R135 and R136: ROM_READ in range returns the ROM's byte at the offset, ROM_WRITE in range has no effect, and both
raise out of range. -/
def Obligations.RomReadsItsBytesAndIgnoresWrites : Prop :=
  ∀ (s : State) (n addr : Nat) (v : Byte) (d : Rom), s.roms[n]? = some d →
    (∀ (j : Nat) (b : Byte), (j : Int) = (addr : Int) - d.base → d.bytes[j]? = some b →
      exec (.romRead n addr) s = .next (s.returning (.byte b)) ∧
      exec (.romWrite n addr v) s = .next (s.returning .ok)) ∧
    (¬ (d.base ≤ (addr : Int) ∧ (addr : Int) < d.base + d.bytes.length) →
      exec (.romRead n addr) s = .next (s.returning (.error (.addressRange addr))) ∧
      exec (.romWrite n addr v) s = .next (s.returning (.error (.addressRange addr))))

/-- A unit's state is set once, when it is constructed: no operation changes a constructed ROM, the base or size of a constructed
RAM, or the period of a constructed clock, turns its tick count back, or makes the clock or the PIT cease to exist; constructing
either again is refused, which is the model's choice (70_reset_and_hazards.md section 1; 10_state.md sections 2 and 4;
41_bus.md sections 3 and 4; decision D17; the refusals are notes/assumptions/14.md). -/
def Obligations.ConstructedUnitsAreSetOnce : Prop :=
  (∀ (i : Instr) (s t : State), exec i s = .next t →
    (∀ (n : Nat) (d : Rom), s.roms[n]? = some d → t.roms[n]? = some d) ∧
    (∀ (n : Nat) (d : Ram), s.rams[n]? = some d → ∃ m : Memory, t.rams[n]? = some ({ d with mem := m } : Ram)) ∧
    (s.clockExists = true → t.clockExists = true ∧ t.clock.tickPeriod = s.clock.tickPeriod ∧
      s.clock.totalTicks ≤ t.clock.totalTicks) ∧
    (s.pitExists = true → t.pitExists = true)) ∧
  ∀ (s : State) (period : Period) (r : ℝ),
    (s.clockExists = true → period.Names r → 0 < r → exec (.clkConstruct period) s = .refused .clockAlreadyConstructed) ∧
    (s.pitExists = true → exec .pitConstruct s = .refused .pitAlreadyConstructed)

/-- RAM_CONSTRUCT and ROM_CONSTRUCT add one device and put nothing on the bus; every byte of the new RAM reads RAM_INIT,
a free value (41_bus.md sections 3 and 4; decisions D16, D17). -/
def Obligations.MemoryDeviceConstruction : Prop :=
  ∀ (s : State) (base size : Int) (bytes : List Byte),
    (∃ m : Memory, exec (.ramConstruct base size) s =
        .next ({ s with rams := s.rams ++ [({ base := base, size := size, mem := m } : Ram)] }.returning .ok) ∧
      ∀ j, ramByte s.rams.length m j = Config.ramInit s.rams.length j) ∧
    exec (.romConstruct base bytes) s =
      .next ({ s with roms := s.roms ++ [({ base := base, bytes := bytes } : Rom)] }.returning .ok)

/-- R122: `register` of a device with an admitted configuration appends it when its range intersects none, and raises
OverlapError, adding nothing, when it intersects a registered one. -/
def Obligations.RegisterAddsOrRaisesOverlap : Prop :=
  ∀ (s : State) (d : DeviceRef) (x : BusEntry), s.deviceEntry d = some x → 0 ≤ x.base → 1 ≤ x.size →
    ((∀ e ∈ s.bus, ¬ (x.base < e.base + e.size ∧ e.base < x.base + x.size)) →
      exec (.busRegister d) s = .next ({ s with bus := s.bus ++ [x] }.returning .ok)) ∧
    ((∃ e ∈ s.bus, x.base < e.base + e.size ∧ e.base < x.base + x.size) →
      ∃ e ∈ s.bus, (x.base < e.base + e.size ∧ e.base < x.base + x.size) ∧
        exec (.busRegister d) s = .next (s.returning (.error (.overlap x e))))

/-- A device with a negative base or a size below 1 is refused, whether or not it would overlap (41_bus.md section 2,
decisions D13 and D42). -/
def Obligations.BadConfigurationIsRefused : Prop :=
  ∀ (s : State) (d : DeviceRef) (x : BusEntry), s.deviceEntry d = some x → x.base < 0 ∨ x.size < 1 →
    ∃ t, exec (.busRegister d) s = .next t ∧ t.result = .refused (.deviceConfiguration x) ∧
      .refused (.deviceConfiguration x) ∈ t.faults ∧
      t = { s with faults := t.faults, result := t.result }

/-- No operation removes or replaces a registered device, and only BUS_REGISTER adds one (41_bus.md section 2,
Ownership; 10_state.md section 3). -/
def Obligations.RegisteredDevicesStay : Prop :=
  ∀ (i : Instr) (s t : State), exec i s = .next t →
    t.bus = s.bus ∨ ∃ d x, i = .busRegister d ∧ s.deviceEntry d = some x ∧ t.bus = s.bus ++ [x]

/-- While the registered entries match their devices, no access through the bus raises AddressRangeError (41_bus.md
section 1, with 60_exceptions.md section 1). -/
def Obligations.BusAccessesAreInRange : Prop :=
  ∀ (s t : State) (addr a : Nat) (v : Byte), BusMatchesDevices s →
    (exec (.busRead addr) s = .next t → t.result ≠ .error (.addressRange a)) ∧
    (exec (.busWrite addr v) s = .next t → t.result ≠ .error (.addressRange a))

/-! ## Invariants that every step keeps -/

/-- Registered ranges stay admitted and pairwise disjoint, and registered entries keep matching their devices
(10_state.md section 3; 41_bus.md sections 1 and 2). -/
def Obligations.BusInvariantsKept : Prop :=
  ∀ s t : State, step s = .next t →
    (RangesDisjoint s → RangesDisjoint t) ∧ (BusMatchesDevices s → BusMatchesDevices t)

/-- The phase counter stays the tick count modulo 4, and the tick period stays positive (40_clock.md, the quad-tick
period; 10_state.md section 2). -/
def Obligations.ClockInvariantsKept : Prop :=
  ∀ s t : State, step s = .next t →
    (PhaseTracksTotal s → PhaseTracksTotal t) ∧ (PeriodPositive s → PeriodPositive t)

/-- Every RAM's memory keeps its canonical form (10_state.md section 4; the form is notes/assumptions/6.md). -/
def Obligations.MemoriesCanonicalKept : Prop :=
  ∀ s t : State, step s = .next t → MemoriesCanonical s → MemoriesCanonical t

/-- Outputs stay low (decision D27); under the policy `refuse` every channel stays in mode 0 (decision D8); the stored SC
field stays the channel's own number or the word unwritten (10_state.md section 5; 44_pit_counting.md sections 2 and 4). -/
def Obligations.PitInvariantsKept : Prop :=
  ∀ s t : State, step s = .next t →
    (OutputsLow s → OutputsLow t) ∧ (RefuseKeepsModeZero s → RefuseKeepsModeZero t) ∧
    (SelectFieldIsOwn s → SelectFieldIsOwn t)

/-- The initial state, under any parameters and any boot with a positive period and an admitted map: the values of
70_reset_and_hazards.md section 1 with the clock started and the gates of the boot set, and the invariants. The example
parameters and boot, and the clock-enable level, are the model's choices (notes/assumptions/4.md, 5.md, 8.md, 9.md); the last
line says that the premises hold of them. -/
def Obligations.ResetValuesAndInvariants : Prop :=
  (∀ (p : Params) (b : BootConfig), let s := State.init p b
    RangesDisjoint s → PeriodPositive s →
    s.params = p ∧ s.clock.tickPeriod = b.tickPeriod ∧ s.clock.phaseCounter = 0 ∧ s.clock.totalTicks = 0 ∧
    s.clock.running = true ∧ (b.listeners = [] → s.clock.tickListeners = [.pitTick] ∧ s.clock.doubleListeners = [] ∧
      s.clock.quadListeners = []) ∧
    s.faults = [] ∧ s.ppi.port1Latch = p.port1Init ∧
    (∀ (n : Nat) (d : Ram) (j : Nat), s.rams[n]? = some d → ramByte n d.mem j = Config.ramInit n j) ∧
    (∀ c, s.channel c = { Channel.zero with gate := b.gates.contains c, running := b.gates.contains c }) ∧
    (∀ c, (s.channel c).controlWord = 0 ∧ (s.channel c).counter = 0 ∧ (s.channel c).countLatch = 0 ∧
      (s.channel c).latchPhase = false ∧ (s.channel c).readPhase = false ∧ (s.channel c).writePhase = false ∧
      (s.channel c).output = false) ∧
    BusMatchesDevices s ∧ PhaseTracksTotal s ∧ MemoriesCanonical s ∧ OutputsLow s ∧ RefuseKeepsModeZero s ∧
    SelectFieldIsOwn s) ∧
  State.reset = State.init Config.exampleParams exampleBoot ∧ RangesDisjoint State.reset ∧ PeriodPositive State.reset

/-- The initial state is the one after the boot: from the machine with nothing constructed, the operations of the boot sequence in
its order (the clock and the devices constructed, the devices registered, the listeners subscribed, the gates set, the clock
started) each return ok and lead to `State.init`, for every boot with a positive period and an admitted map
(70_reset_and_hazards.md sections 1 and 2; decision D18; the state before construction is notes/assumptions/4.md). -/
def Obligations.BootSequenceReachesInitialState : Prop :=
  ∀ (p : Params) (b : BootConfig), RangesDisjoint (State.init p b) → PeriodPositive (State.init p b) →
    performAll (bootOps b) (State.blank p) = .next ((State.init p b).returning .ok)

/-! ## The PIT: construction and mode words (42_pit_control.md) -/

/-- PIT_CONSTRUCT creates the PIT: it zeroes the channel file and appends PIT_TICK to the TICK listeners; the PIT's base is
PIT_BASE and its size 4 (42_pit_control.md section 1; 70_reset_and_hazards.md section 1). That the bases are held by the
parameters, and that a PIT which exists is not created again (ConstructedUnitsAreSetOnce), is notes/assumptions/14.md. -/
def Obligations.PitConstructZeroes : Prop :=
  ∀ s : State, s.pitExists = false → ∃ t, exec .pitConstruct s = .next t ∧ t.result = .ok ∧ t.pitExists = true ∧
    (∀ c, (t.channel c).controlWord = 0 ∧ (t.channel c).counter = 0 ∧ (t.channel c).countLatch = 0 ∧
      (t.channel c).latchPhase = false ∧ (t.channel c).readPhase = false ∧ (t.channel c).writePhase = false ∧
      (t.channel c).gate = false ∧ (t.channel c).running = false ∧ (t.channel c).output = false) ∧
    t.deviceEntry .pit = some { device := .pit, base := s.params.pitBase, size := 4 } ∧
    t.clock = { s.clock with tickListeners := s.clock.tickListeners ++ [.pitTick] } ∧
    t = { s with pitExists := t.pitExists, pit := t.pit, clock := t.clock, result := t.result }

/-- R152: the counter-latch command stores the whole byte, copies the counter into the latch and resets the latch phase;
under the policy `refuse` a nonzero mode is refused and nothing is stored. -/
def Obligations.LatchCommandSnapshots : Prop :=
  ∀ (s : State) (c : Chan) (v : Byte), v.extractLsb' 6 2 = c.bits → v.extractLsb' 4 2 = 0 →
    let i := Instr.pitCwLatch c (v.extractLsb' 1 3) (v.extractLsb' 0 1)
    (s.params.policy = .placeholder ∨ v.extractLsb' 1 3 = 0 →
      exec i s = .next ((s.setChannel c { s.channel c with
        controlWord := v
        countLatch := (s.channel c).counter
        latchPhase := false }).returning .ok)) ∧
    (s.params.policy = .refuse → v.extractLsb' 1 3 ≠ 0 →
      ∃ t, exec i s = .next t ∧ t.result = .refused (.modeWord v) ∧ .refused (.modeWord v) ∈ t.faults ∧
        t = { s with faults := t.faults, result := t.result })

/-- A mode-setting control word with AM 1, 2 or 3 stores the whole byte in its channel and writes nothing else
(42_pit_control.md section 2, decisions D3 and D7), where the policy does not refuse it. -/
def Obligations.ModeWordsWriteOnlyTheControlWord : Prop :=
  ∀ (s : State) (c : Chan) (v : Byte), v.extractLsb' 6 2 = c.bits →
    (s.params.policy = .placeholder ∨ v.extractLsb' 1 3 = 0) →
    let stored := Host.Outcome.next ((s.setChannel c { s.channel c with controlWord := v }).returning .ok)
    (v.extractLsb' 4 2 = 1 → exec (.pitCwSetLsb c (v.extractLsb' 1 3) (v.extractLsb' 0 1)) s = stored) ∧
    (v.extractLsb' 4 2 = 2 → exec (.pitCwSetMsb c (v.extractLsb' 1 3) (v.extractLsb' 0 1)) s = stored) ∧
    (v.extractLsb' 4 2 = 3 → exec (.pitCwSetLsbMsb c (v.extractLsb' 1 3) (v.extractLsb' 0 1)) s = stored)

/-- A mode word with SC = 3 raises InvalidModeError with the byte, whatever its other bits and the policy
(42_pit_control.md section 2, decisions D6 and D42). -/
def Obligations.ChannelSelectThreeRaises : Prop :=
  ∀ (s : State) (v : Byte), v.extractLsb' 6 2 = 3 →
    exec (.pitCwSc3 (v.extractLsb' 4 2) (v.extractLsb' 1 3) (v.extractLsb' 0 1)) s =
      .next (s.returning (.error (.invalidModeWord v)))

/-- Under NONZERO_MODE_POLICY = refuse, each of the four mode-word rows with a nonzero mode is recorded as Refused and
writes no device state (44_pit_counting.md section 4, decision D8). -/
def Obligations.RefusePolicyRefusesNonzeroModes : Prop :=
  ∀ (s : State) (c : Chan) (m : BitVec 3) (b : BitVec 1), s.params.policy = .refuse → m ≠ 0 →
    ∀ i ∈ [Instr.pitCwLatch c m b, .pitCwSetLsb c m b, .pitCwSetMsb c m b, .pitCwSetLsbMsb c m b],
      ∃ (t : State) (v : Byte), exec i s = .next t ∧ v.extractLsb' 6 2 = c.bits ∧ v.extractLsb' 1 3 = m ∧
        t.result = .refused (.modeWord v) ∧ .refused (.modeWord v) ∈ t.faults ∧
        t = { s with faults := t.faults, result := t.result }

/-- The four accesses the source gives no meaning are recorded as Undefined and write no device state
(42_pit_control.md section 3, 45_peripheral_interface.md; decisions D11 and D34). -/
def Obligations.UndefinedAccessesAreRecorded : Prop :=
  ∀ (s : State) (v : Byte),
    ∀ p ∈ [(Instr.pitRdCw, UndefinedAccess.pitOffset3Read), (.ppiWr0 v, .ppiPort0Write), (.ppiRd1, .ppiPort1Read),
        (.ppiWr2 v, .ppiPort2Write)],
      ∃ t, exec p.1 s = .next t ∧ t.result = .undefined p.2 ∧ .undefined p.2 ∈ t.faults ∧
        (∀ r ∈ t.faults, r = .undefined p.2 ∨ r ∈ s.faults) ∧ (∀ r ∈ s.faults, r ∈ t.faults) ∧
        t = { s with faults := t.faults, result := t.result }

/-- A direct call of the PIT or of the PeripheralInterface at an offset outside 0..3 raises AddressRangeError and writes
nothing (42_pit_control.md section 3, 45_peripheral_interface.md; decision D12). -/
def Obligations.DirectCallsOutOfRangeRaise : Prop :=
  ∀ (s : State) (acc : Access),
    (acc.addr < s.params.pitBase ∨ s.params.pitBase + 3 < acc.addr →
      exec (.pitBadOffset acc) s = .next (s.returning (.error (.addressRange acc.addr)))) ∧
    (acc.addr < s.params.ppiBase ∨ s.params.ppiBase + 3 < acc.addr →
      exec (.ppiBadOffset acc) s = .next (s.returning (.error (.addressRange acc.addr))))

/-! ## The PIT: data ports (43_pit_data.md) -/

/-- A data write while AM = 0 raises InvalidModeError with the channel and writes nothing (43_pit_data.md section 2,
decision D5). -/
def Obligations.DataWriteInLatchModeRaises : Prop :=
  ∀ (s : State) (c : Chan) (v : Byte),
    exec (.pitWrDataAm0 c v) s = .next (s.returning (.error (.invalidAccessMode c .latch)))

/-- Low-byte-only write: the low byte is replaced by the byte (clamped when BCD = 1), the high byte kept, and the channel
armed in mode 0; nothing else changes, and in a nonzero mode `running` does not. High-byte-only write: the same, for the other
byte (43_pit_data.md sections 1 and 2; decision D8 for the nonzero modes). -/
def Obligations.SingleByteWrites : Prop :=
  ∀ (s : State) (c : Chan) (v : Byte),
    let x := s.channel c
    let b := if x.controlWord.extractLsb' 0 1 = 1 then clampBcd v else v
    let stored := fun w : Word16 => Host.Outcome.next ((s.setChannel c { x with
      counter := w
      running := if x.controlWord.extractLsb' 1 3 = 0 then x.gate else x.running }).returning .ok)
    (∃ w : Word16, w.extractLsb' 0 8 = b ∧ w.extractLsb' 8 8 = x.counter.extractLsb' 8 8 ∧
      exec (.pitWrDataLsb c v) s = stored w) ∧
    (∃ w : Word16, w.extractLsb' 8 8 = b ∧ w.extractLsb' 0 8 = x.counter.extractLsb' 0 8 ∧
      exec (.pitWrDataMsb c v) s = stored w)

/-- Low-then-high write: the low byte at the first write, with no arming, the high byte at the second, which arms in
mode 0; the write phase toggles and no other flag changes (43_pit_data.md section 2; decision D8 for the nonzero modes). -/
def Obligations.LowThenHighWrite : Prop :=
  ∀ (s : State) (c : Chan) (v : Byte), ∃ w : Word16,
    let x := s.channel c
    let b := if x.controlWord.extractLsb' 0 1 = 1 then clampBcd v else v
    (x.writePhase = false →
      w.extractLsb' 0 8 = b ∧ w.extractLsb' 8 8 = x.counter.extractLsb' 8 8 ∧
      exec (.pitWrDataLsbMsb c v) s =
        .next ((s.setChannel c { x with counter := w, writePhase := true }).returning .ok)) ∧
    (x.writePhase = true →
      w.extractLsb' 8 8 = b ∧ w.extractLsb' 0 8 = x.counter.extractLsb' 0 8 ∧
      exec (.pitWrDataLsbMsb c v) s = .next ((s.setChannel c { x with
        counter := w
        writePhase := false
        running := if x.controlWord.extractLsb' 1 3 = 0 then x.gate else x.running }).returning .ok))

/-- R176: a latched read returns the low byte of the latch while the latch phase is false and the high byte while it is
true, and toggles that phase; nothing else changes. -/
def Obligations.LatchedRead : Prop :=
  ∀ (s : State) (c : Chan),
    exec (.pitRdLatched c) s = .next ((s.setChannel c { s.channel c with
      latchPhase := !(s.channel c).latchPhase }).returning
        (.byte ((s.channel c).countLatch.extractLsb' (if (s.channel c).latchPhase then 8 else 0) 8)))

/-- R177 and R178: the single-byte reads return the low, or the high, byte of the live counter and write nothing. -/
def Obligations.SingleByteReads : Prop :=
  ∀ (s : State) (c : Chan),
    exec (.pitRdLsb c) s = .next (s.returning (.byte ((s.channel c).counter.extractLsb' 0 8))) ∧
    exec (.pitRdMsb c) s = .next (s.returning (.byte ((s.channel c).counter.extractLsb' 8 8)))

/-- R179: a low-then-high read returns the low byte of the live counter while the read phase is false and the high byte
while it is true, and toggles that phase; nothing else changes. -/
def Obligations.LowThenHighRead : Prop :=
  ∀ (s : State) (c : Chan),
    exec (.pitRdLsbMsb c) s = .next ((s.setChannel c { s.channel c with
      readPhase := !(s.channel c).readPhase }).returning
        (.byte ((s.channel c).counter.extractLsb' (if (s.channel c).readPhase then 8 else 0) 8)))

/-- R170: the BCD write clamp forces each nibble above 9 to 9; a data write of a channel that counts in BCD stores the clamped
byte, of any other channel the byte as it is, and in both cases the other byte of the counter is kept. -/
def Obligations.BcdWriteClamp : Prop :=
  (∀ v : Byte, (clampBcd v).toNat = min (v.toNat / 16) 9 * 16 + min (v.toNat % 16) 9) ∧
  ∀ (s : State) (c : Chan) (v : Byte),
    ∀ i ∈ [Instr.pitWrDataLsb c v, .pitWrDataMsb c v, .pitWrDataLsbMsb c v], ∃ t, exec i s = .next t ∧
      let b := if (s.channel c).controlWord.extractLsb' 0 1 = 1 then clampBcd v else v
      let was := (s.channel c).counter
      let is := (t.channel c).counter
      (is.extractLsb' 0 8 = b ∧ is.extractLsb' 8 8 = was.extractLsb' 8 8) ∨
      (is.extractLsb' 8 8 = b ∧ is.extractLsb' 0 8 = was.extractLsb' 0 8)

/-- A binary count loaded by two low-then-high writes, latched and read by two latched reads, comes back; it also shows in
between that a tick of the running counter does not disturb the snapshot (43_pit_data.md sections 2 and 3; 42_pit_control.md
section 4; 95_test_vectors.md property 4). -/
def Obligations.LoadLatchReadRoundTrip : Prop :=
  ∀ (s : State) (c : Chan) (low high : Byte),
    (s.channel c).controlWord.extractLsb' 0 1 = 0 → (s.channel c).writePhase = false →
    ∃ s1 s2 s3 s4 s5 s6,
      exec (.pitWrDataLsbMsb c low) s = .next s1 ∧ exec (.pitWrDataLsbMsb c high) s1 = .next s2 ∧
      exec (.pitCwLatch c 0 0) s2 = .next s3 ∧
      exec (.pitRdLatched c) s3 = .next s4 ∧ s4.result = .byte low ∧
      exec .pitTick s4 = .next s5 ∧
      exec (.pitRdLatched c) s5 = .next s6 ∧ s6.result = .byte high ∧
      (s6.channel c).countLatch = high ++ low ∧ (s6.channel c).writePhase = false

/-! ## The PIT: counting and the gate (44_pit_counting.md) -/

/-- PIT_TICK clears every output and decrements every running channel with a nonzero counter, in BCD where the channel
counts in BCD; no other field of any channel and nothing outside the PIT changes (44_pit_counting.md section 1; the running
test is decision D9). -/
def Obligations.TickHandlerCounts : Prop :=
  ∀ s : State, ∃ t, exec .pitTick s = .next t ∧ t.result = .ok ∧ t = { s with pit := t.pit, result := t.result } ∧
    ∀ c, t.channel c = { s.channel c with
      output := false
      counter :=
        if (s.channel c).running = true ∧ (s.channel c).counter ≠ 0 then
          (if (s.channel c).controlWord.extractLsb' 0 1 = 1 then bcdDec (s.channel c).counter
            else (s.channel c).counter - 1)
        else (s.channel c).counter }

/-- R201: with BCD = 0 a running channel's counter N, 1 ≤ N ≤ 0xFFFF, becomes N - 1 in a tick, and 0 stays 0. -/
def Obligations.BinaryDecrement : Prop :=
  ∀ (s t : State) (c : Chan), (s.channel c).running = true → (s.channel c).controlWord.extractLsb' 0 1 = 0 →
    exec .pitTick s = .next t → (t.channel c).counter.toNat = (s.channel c).counter.toNat - 1

/-- The BCD decrement takes 1 from the least nonzero digit, makes every lower digit 9 and keeps every higher one, for all
nonzero counters (44_pit_counting.md section 2; 90_conflicts.md C2; decision D10). -/
def Obligations.BcdDecrementByDigit : Prop :=
  ∀ w : Word16, w ≠ 0 → ∃ i < 4,
    w.extractLsb' (4 * i) 4 ≠ 0 ∧ (bcdDec w).extractLsb' (4 * i) 4 = w.extractLsb' (4 * i) 4 - 1 ∧
    (∀ j < i, w.extractLsb' (4 * j) 4 = 0 ∧ (bcdDec w).extractLsb' (4 * j) 4 = 9) ∧
    (∀ j, i < j → j < 4 → (bcdDec w).extractLsb' (4 * j) 4 = w.extractLsb' (4 * j) 4)

/-- On a counter of four decimal digits the BCD decrement is the decimal one: the digits stay decimal and their value drops
by one (44_pit_counting.md section 2; property 3 of 95_test_vectors.md section 1; decision D10). -/
def Obligations.BcdDecrementIsDecimal : Prop :=
  ∀ w : Word16, w ≠ 0 → (∀ j < 4, (w.extractLsb' (4 * j) 4).toNat ≤ 9) →
    let digit := fun (x : Word16) (j : Nat) => (x.extractLsb' (4 * j) 4).toNat
    let value := fun (x : Word16) => digit x 3 * 1000 + digit x 2 * 100 + digit x 1 * 10 + digit x 0
    (∀ j < 4, digit (bcdDec w) j ≤ 9) ∧ value (bcdDec w) + 1 = value w

/-- R203: a counter at 0 is left unchanged by a tick in binary and in BCD, `running` stays, no output is raised; a running
binary channel counts N, N - 1, …, 0 and then stays at 0, reaching 0 after exactly N ticks. -/
def Obligations.CountdownReachesZeroAndStays : Prop :=
  (∀ (s : State) (c : Chan), (s.channel c).counter = 0 →
    ∃ t, exec .pitTick s = .next t ∧ t.channel c = { s.channel c with output := false }) ∧
  (∀ (s : State) (c : Chan) (k : Nat), (s.channel c).running = true →
    (s.channel c).controlWord.extractLsb' 0 1 = 0 →
    ∃ t, tickTimes k s = .next t ∧ (t.channel c).counter.toNat = (s.channel c).counter.toNat - k ∧
      (t.channel c).running = true ∧ ((t.channel c).counter = 0 ↔ (s.channel c).counter.toNat ≤ k))

/-- PIT_SET_GATE stores the level on every call; in mode 0 `running` takes it too, in a nonzero mode it does not; nothing
else changes (44_pit_counting.md sections 3 and 4; decisions D8, D25). -/
def Obligations.GateInput : Prop :=
  ∀ (s : State) (c : Chan) (level : Bool),
    exec (.pitSetGate c level) s = .next ((s.setChannel c { s.channel c with
      gate := level
      running := if (s.channel c).controlWord.extractLsb' 1 3 = 0 then level
        else (s.channel c).running }).returning .ok)

/-- The only operations that change each field of a channel of a constructed PIT, over all operations and whatever way they reach
the PIT (10_state.md section 5, the field rules; 43_pit_data.md section 3; 44_pit_counting.md section 1). -/
def Obligations.ChannelFieldsHaveOnlyTheseWriters : Prop :=
  ∀ (i : Instr) (s t : State) (c : Chan), exec i s = .next t → s.pitExists = true →
    ((t.channel c).controlWord ≠ (s.channel c).controlWord → (s.performed i).writesModeWord c = true) ∧
    ((t.channel c).counter ≠ (s.channel c).counter →
      (s.performed i).writesData c = true ∨
      ((s.performed i).ticks = true ∧ (s.channel c).running = true ∧ (s.channel c).counter ≠ 0)) ∧
    ((t.channel c).countLatch ≠ (s.channel c).countLatch → ∃ m b, s.performed i = .pitCwLatch c m b) ∧
    ((t.channel c).latchPhase ≠ (s.channel c).latchPhase →
      s.performed i = .pitRdLatched c ∨ ∃ m b, s.performed i = .pitCwLatch c m b) ∧
    ((t.channel c).readPhase ≠ (s.channel c).readPhase → s.performed i = .pitRdLsbMsb c) ∧
    ((t.channel c).writePhase ≠ (s.channel c).writePhase → ∃ v, s.performed i = .pitWrDataLsbMsb c v) ∧
    ((t.channel c).gate ≠ (s.channel c).gate → ∃ level, s.performed i = .pitSetGate c level) ∧
    ((t.channel c).running ≠ (s.channel c).running →
      (s.channel c).controlWord.extractLsb' 1 3 = 0 ∧
      ((s.performed i).writesData c = true ∨ ∃ level, s.performed i = .pitSetGate c level)) ∧
    ((t.channel c).output ≠ (s.channel c).output → (s.performed i).ticks = true ∧ (t.channel c).output = false)

/-- An operation on one channel writes no other channel, and what it returns and leaves in its own channel depends on that
channel and the parameters alone (10_state.md section 5, Channel file; 44_pit_counting.md section 4, Channel independence). -/
def Obligations.ChannelsAreIndependent : Prop :=
  ∀ (i : Instr) (c : Chan) (s s' : State), i.onChannel? = some c →
    s.channel c = s'.channel c → s.params = s'.params →
    ∃ t t', exec i s = .next t ∧ exec i s' = .next t' ∧
      t.channel c = t'.channel c ∧ t.result = t'.result ∧
      (∀ c', c' ≠ c → t.channel c' = s.channel c') ∧
      t = { s with pit := t.pit, faults := t.faults, result := t.result }

/-- After a counter-latch command of channel c taken at counter N, and until the next mode-word write of channel c, the data port
of c decodes to the latched read, and the reads return lo(N), hi(N), lo(N), … whatever other operations happen between them
(42_pit_control.md section 4; 95_test_vectors.md property 4). -/
def Obligations.LatchSnapshotIsIsolated : Prop :=
  ∀ (s s1 u : State) (c : Chan) (m : BitVec 3) (b : BitVec 1) (k : Nat),
    s.pitExists = true → exec (.pitCwLatch c m b) s = .next s1 → s1.result = .ok → Undisturbed c k s1 u →
    decode u.decodeCtx (.ptw (256 * c.bits.toNat)) = .ok (.pitRdLatched c) ∧
    ∃ t, exec (.pitRdLatched c) u = .next t ∧
      t.result = .byte ((s.channel c).counter.extractLsb' (if k % 2 = 0 then 0 else 8) 8)

/-! ## The clock (40_clock.md) -/

/-- CLK_CONSTRUCT, for the period being any real number: one that is not positive raises InvalidTickPeriod and writes nothing; a
positive one, where no clock exists yet (where one does, ConstructedUnitsAreSetOnce), makes the clock, stopped, at 0, with no
listener (40_clock.md, CLK_CONSTRUCT; decisions D18, D23; how a real is written is notes/assumptions/9.md). -/
def Obligations.ClockConstruction : Prop :=
  (∀ (s : State) (period : Period) (r : ℝ), period.Names r →
    (r ≤ 0 → exec (.clkConstruct period) s = .next (s.returning (.error (.invalidTickPeriod period)))) ∧
    (0 < r → s.clockExists = false → exec (.clkConstruct period) s = .next ({ s with clockExists := true, clock := {
      tickPeriod := period
      phaseCounter := 0
      totalTicks := 0
      running := false
      tickListeners := []
      doubleListeners := []
      quadListeners := [] } }.returning .ok))) ∧
  ∀ r : ℝ, ∃ period : Period, period.Names r

/-- CLK_SUBSCRIBE appends to the list of its kind and to no other, CLK_START and CLK_STOP write `running` alone and are
idempotent; a re-entrant listener is refused and recorded (40_clock.md; decisions D20, D21; notes/assumptions/13.md). -/
def Obligations.ClockControl : Prop :=
  ∀ (s : State) (l : Listener) (k : EventKind) (name : Nat),
    exec (.clkSubscribe .tick (.admitted l)) s = .next ({ s with clock := { s.clock with
      tickListeners := s.clock.tickListeners ++ [l] } }.returning .ok) ∧
    exec (.clkSubscribe .double (.admitted l)) s = .next ({ s with clock := { s.clock with
      doubleListeners := s.clock.doubleListeners ++ [l] } }.returning .ok) ∧
    exec (.clkSubscribe .quad (.admitted l)) s = .next ({ s with clock := { s.clock with
      quadListeners := s.clock.quadListeners ++ [l] } }.returning .ok) ∧
    (∃ t, exec (.clkSubscribe k (.reentrant name)) s = .next t ∧ t.result = .refused (.reentrantListener k name) ∧
      .refused (.reentrantListener k name) ∈ t.faults ∧ t = { s with faults := t.faults, result := t.result }) ∧
    exec .clkStart s = .next ({ s with clock := { s.clock with running := true } }.returning .ok) ∧
    exec .clkStop s = .next ({ s with clock := { s.clock with running := false } }.returning .ok)

/-- CLK_TICK while running completes, advances `total_ticks` by one and the phase by one modulo 4, runs the PIT's handler once
when it is subscribed once to TICK and to nothing else, and writes nothing but the clock's two counters, the PIT and the trace;
while stopped it changes nothing (40_clock.md, CLK_TICK, Tick enabling and No error in a tick; decision D19;
notes/assumptions/15.md). -/
def Obligations.TickAdvancesTheClock : Prop :=
  ∀ s : State,
    (s.clock.running = true → ∃ t, exec .clkTick s = .next t ∧ t.result = .ok ∧
      t.clock.totalTicks = s.clock.totalTicks + 1 ∧
      t.clock.phaseCounter.val = (if s.clock.phaseCounter.val + 1 = 4 then 0 else s.clock.phaseCounter.val + 1) ∧
      t.clock = { s.clock with totalTicks := t.clock.totalTicks, phaseCounter := t.clock.phaseCounter } ∧
      t = { s with clock := t.clock, pit := t.pit, trace := t.trace, result := t.result } ∧
      (s.clock.tickListeners.count .pitTick = 1 → s.clock.doubleListeners.count .pitTick = 0 →
        s.clock.quadListeners.count .pitTick = 0 →
        ∃ u, exec .pitTick s = .next u ∧ t.pit = u.pit)) ∧
    (s.clock.running = false → exec .clkTick s = .next (s.returning .notEnabled))

/-- While the phase tracks the tick count: a tick notifies TICK, in registration order and seeing the count before it; in the
ticks whose number is even then DOUBLE, seeing the count after it; in the multiples of 4 then QUAD (40_clock.md, Double-tick
period, Quad-tick period, What listeners see; decisions D19, D20, D37; that an event carries the count is
notes/assumptions/10.md). -/
def Obligations.TickNotifications : Prop :=
  ∀ s : State, s.clock.running = true → PhaseTracksTotal s →
    let n := s.clock.totalTicks + 1
    ∃ t, exec .clkTick s = .next t ∧
      t.trace = s.trace
        ++ s.clock.tickListeners.map (fun l => { kind := .tick, listener := l, totalTicks := n - 1 })
        ++ (if n % 2 = 0 then s.clock.doubleListeners.map (fun l => { kind := .double, listener := l, totalTicks := n })
            else [])
        ++ (if n % 4 = 0 then s.clock.quadListeners.map (fun l => { kind := .quad, listener := l, totalTicks := n })
            else [])

/-- R109: CLK_TOTAL_TICKS returns `total_ticks` and writes nothing, running or not. -/
def Obligations.TotalTicksIsRead : Prop :=
  ∀ s : State, exec .clkTotalTicks s = .next (s.returning (.count s.clock.totalTicks))

/-! ## The PeripheralInterface (45_peripheral_interface.md) -/

/-- Port 0 returns the switch byte when bit 7 of the latch selects it, and otherwise one answer of the keyboard, a free
value; port 2 returns the second switch byte OR'd with the four status bits at their positions, three of them free values
(45_peripheral_interface.md, port 0 and port 2; decisions D34, D35; the draws are notes/assumptions/7.md). -/
def Obligations.PeripheralInputPorts : Prop :=
  ∀ s : State,
    (s.ppi.port1Latch.getLsbD 7 = s.params.port0SwitchWhen →
      exec .ppiRd0 s = .next (s.returning (.byte s.params.ppiSw1))) ∧
    (s.ppi.port1Latch.getLsbD 7 ≠ s.params.port0SwitchWhen →
      exec .ppiRd0 s = .next ({ s with draws := s.draws + 1 }.returning (.byte (Config.keyboardGet s.draws)))) ∧
    ∃ r : Byte, exec .ppiRd2 s = .next ({ s with draws := s.draws + 1 }.returning (.byte r)) ∧
      ∀ j : Fin 8, r.getLsbD j.val = (s.params.ppiSw2.getLsbD j.val
        || (Config.cassetteIn s.draws && s.params.cassetteBit == j)
        || ((s.channel .ch2).output && s.params.timerBit == j)
        || (Config.ioCheck s.draws && s.params.ioCheckBit == j)
        || (Config.ramCheck s.draws && s.params.ramCheckBit == j))

/-- R224, R227 and R228: a port-1 write stores the latch and sends bit 6 to the keyboard's clock-enable; port 3 reads the
hardwired byte; a port-3 write of that byte is accepted with no effect, and of any other raises. -/
def Obligations.PeripheralLatchAndConfiguration : Prop :=
  ∀ (s : State) (v : Byte),
    exec (.ppiWr1 v) s =
      .next ({ s with ppi := { port1Latch := v }, keyboard := { clockEnable := v.getLsbD 6 } }.returning .ok) ∧
    exec .ppiRd3 s = .next (s.returning (.byte s.params.ppiConfigByte)) ∧
    exec (.ppiWr3 s.params.ppiConfigByte) s = .next (s.returning .ok) ∧
    (v ≠ s.params.ppiConfigByte → exec (.ppiWr3 v) s = .next (s.returning (.error (.unsupportedConfiguration v))))
end

