-- ==== Sys2Proof/Laws/Bits.lean ====
section
/-! SUPPORT. What the bit fields of words are, as numbers: concatenation, the fields of a transaction word and of a mode
word, and the bytes and nibbles of a counter (spec/00_scope.md R8; 30_encoding.md R81, R84). -/

namespace Sys2Proof

/-- Concatenation as a number: the left operand in the high bits. -/
theorem toNat_concat {m n : Nat} (x : BitVec m) (y : BitVec n) : (x ++ y).toNat = x.toNat * 2 ^ n + y.toNat := by
  rw [BitVec.toNat_append, ← Nat.shiftLeft_add_eq_or_of_lt y.isLt, Nat.shiftLeft_eq]

/-- A field as a number. -/
theorem toNat_field {n : Nat} (x : BitVec n) (lo len : Nat) :
    (x.extractLsb' lo len).toNat = x.toNat / 2 ^ lo % 2 ^ len := by
  rw [BitVec.extractLsb'_toNat, Nat.shiftRight_eq_div_pow]

/-- The parts of a concatenation. -/
@[simp] theorem concat_low {m n : Nat} (x : BitVec m) (y : BitVec n) : (x ++ y).extractLsb' 0 n = y := by
  apply BitVec.eq_of_toNat_eq
  rw [toNat_field, toNat_concat, Nat.pow_zero, Nat.div_one, Nat.add_comm, Nat.add_mul_mod_self_right,
    Nat.mod_eq_of_lt y.isLt]

@[simp] theorem concat_high {m n : Nat} (x : BitVec m) (y : BitVec n) : (x ++ y).extractLsb' n m = x := by
  apply BitVec.eq_of_toNat_eq
  rw [toNat_field, toNat_concat, Nat.mul_comm, Nat.mul_add_div (Nat.two_pow_pos n), Nat.div_eq_of_lt y.isLt,
    Nat.add_zero, Nat.mod_eq_of_lt x.isLt]

/-! ## Transaction words (30_encoding.md R84) -/

@[simp] theorem wField_portWord (w : BitVec 1) (p : BitVec 2) (d : Byte) : wField (portWord w p d) = w := by
  apply BitVec.eq_of_toNat_eq
  simp only [wField, portWord, toNat_field, toNat_concat]
  have := w.isLt; have := p.isLt; have := d.isLt
  omega

@[simp] theorem pField_portWord (w : BitVec 1) (p : BitVec 2) (d : Byte) : pField (portWord w p d) = p := by
  apply BitVec.eq_of_toNat_eq
  simp only [pField, portWord, toNat_field, toNat_concat]
  have := w.isLt; have := p.isLt; have := d.isLt
  omega

@[simp] theorem dField_portWord (w : BitVec 1) (p : BitVec 2) (d : Byte) : dField (portWord w p d) = d := by
  apply BitVec.eq_of_toNat_eq
  simp only [dField, portWord, toNat_field, toNat_concat]
  have := w.isLt; have := p.isLt; have := d.isLt
  omega

/-- A transaction word is made of its fields. -/
theorem portWord_fields (t : PortWord) : portWord (wField t) (pField t) (dField t) = t := by
  apply BitVec.eq_of_toNat_eq
  simp only [wField, pField, dField, portWord, toNat_field, toNat_concat]
  have := t.isLt
  omega

/-- A transaction word fits eleven bits. -/
theorem portWord_lt (w : BitVec 1) (p : BitVec 2) (d : Byte) : (portWord w p d).toNat < 2048 := (portWord w p d).isLt

/-! ## Mode words (30_encoding.md R81) -/

@[simp] theorem scField_modeByte (sc am : BitVec 2) (m : BitVec 3) (b : BitVec 1) : scField (modeByte sc am m b) = sc := by
  apply BitVec.eq_of_toNat_eq
  simp only [scField, modeByte, toNat_field, toNat_concat]
  have := sc.isLt; have := am.isLt; have := m.isLt; have := b.isLt
  omega

@[simp] theorem amField_modeByte (sc am : BitVec 2) (m : BitVec 3) (b : BitVec 1) : amField (modeByte sc am m b) = am := by
  apply BitVec.eq_of_toNat_eq
  simp only [amField, modeByte, toNat_field, toNat_concat]
  have := sc.isLt; have := am.isLt; have := m.isLt; have := b.isLt
  omega

@[simp] theorem mField_modeByte (sc am : BitVec 2) (m : BitVec 3) (b : BitVec 1) : mField (modeByte sc am m b) = m := by
  apply BitVec.eq_of_toNat_eq
  simp only [mField, modeByte, toNat_field, toNat_concat]
  have := sc.isLt; have := am.isLt; have := m.isLt; have := b.isLt
  omega

@[simp] theorem bcdField_modeByte (sc am : BitVec 2) (m : BitVec 3) (b : BitVec 1) :
    bcdField (modeByte sc am m b) = b := by
  apply BitVec.eq_of_toNat_eq
  simp only [bcdField, modeByte, toNat_field, toNat_concat]
  have := sc.isLt; have := am.isLt; have := m.isLt; have := b.isLt
  omega

/-- A mode word is made of its fields. -/
theorem modeByte_fields (v : Byte) : modeByte (scField v) (amField v) (mField v) (bcdField v) = v := by
  apply BitVec.eq_of_toNat_eq
  simp only [scField, amField, mField, bcdField, modeByte, toNat_field, toNat_concat]
  have := v.isLt
  omega

/-! ## Channel numbers and access modes -/

@[simp] theorem chan_ofBits_bits (c : Chan) : Chan.ofBits c.bits = some c := by cases c <;> rfl

@[simp] theorem accessMode_ofBits_bits (a : AccessMode) : AccessMode.ofBits a.bits = a := by cases a <;> rfl

@[simp] theorem accessMode_bits_ofBits (b : BitVec 2) : (AccessMode.ofBits b).bits = b := by
  revert b; decide

@[simp] theorem chan_ofBits_zero : Chan.ofBits 0#2 = some .ch0 := rfl
@[simp] theorem chan_ofBits_one : Chan.ofBits 1#2 = some .ch1 := rfl
@[simp] theorem chan_ofBits_two : Chan.ofBits 2#2 = some .ch2 := rfl
@[simp] theorem chan_ofBits_three : Chan.ofBits 3#2 = none := rfl
@[simp] theorem accessMode_ofBits_zero : AccessMode.ofBits 0#2 = .latch := rfl
@[simp] theorem accessMode_ofBits_one : AccessMode.ofBits 1#2 = .lsb := rfl
@[simp] theorem accessMode_ofBits_two : AccessMode.ofBits 2#2 = .msb := rfl
@[simp] theorem accessMode_ofBits_three : AccessMode.ofBits 3#2 = .lsbMsb := rfl

/-- No channel has the number 3 (30_encoding.md R82). -/
@[simp] theorem chan_bits_ne_three (c : Chan) : c.bits ≠ 3#2 := by cases c <;> decide

/-- A two-bit number is 3 or a channel's number (30_encoding.md R82). -/
theorem chan_ofBits_eq (b : BitVec 2) : (b = 3 ∧ Chan.ofBits b = none) ∨ ∃ c, b = Chan.bits c ∧ Chan.ofBits b = some c := by
  have h : ∀ b : BitVec 2, b = 0 ∨ b = 1 ∨ b = 2 ∨ b = 3 := by decide
  rcases h b with rfl | rfl | rfl | rfl
  · exact .inr ⟨.ch0, rfl, rfl⟩
  · exact .inr ⟨.ch1, rfl, rfl⟩
  · exact .inr ⟨.ch2, rfl, rfl⟩
  · exact .inl ⟨rfl, rfl⟩

end Sys2Proof

namespace Sys2Proof.Machine

/-! ## Bytes and nibbles of a counter (00_scope.md R8) -/

@[simp] theorem lo_joinBytes (h l : Byte) : lo (joinBytes h l) = l := concat_low h l
@[simp] theorem hi_joinBytes (h l : Byte) : hi (joinBytes h l) = h := concat_high h l

/-- A counter is made of its two bytes. -/
@[simp] theorem joinBytes_hi_lo (w : Word16) : joinBytes (hi w) (lo w) = w := by
  apply BitVec.eq_of_toNat_eq
  simp only [joinBytes, hi, lo, toNat_field, toNat_concat]
  have := w.isLt
  omega

@[simp] theorem lo_withLo (w : Word16) (b : Byte) : lo (withLo w b) = b := lo_joinBytes _ _
@[simp] theorem hi_withLo (w : Word16) (b : Byte) : hi (withLo w b) = hi w := hi_joinBytes _ _
@[simp] theorem lo_withHi (w : Word16) (b : Byte) : lo (withHi w b) = lo w := lo_joinBytes _ _
@[simp] theorem hi_withHi (w : Word16) (b : Byte) : hi (withHi w b) = b := hi_joinBytes _ _

/-- Four nibbles as a number. -/
theorem toNat_joinNibs (a b c d : BitVec 4) :
    (joinNibs a b c d).toNat = a.toNat * 4096 + b.toNat * 256 + c.toNat * 16 + d.toNat := by
  simp only [joinNibs, toNat_concat]
  omega

@[simp] theorem nib0_joinNibs (a b c d : BitVec 4) : nib (joinNibs a b c d) 0 = d := by
  apply BitVec.eq_of_toNat_eq
  simp only [nib, toNat_field, toNat_joinNibs]
  have := a.isLt; have := b.isLt; have := c.isLt; have := d.isLt
  omega

@[simp] theorem nib1_joinNibs (a b c d : BitVec 4) : nib (joinNibs a b c d) 1 = c := by
  apply BitVec.eq_of_toNat_eq
  simp only [nib, toNat_field, toNat_joinNibs]
  have := a.isLt; have := b.isLt; have := c.isLt; have := d.isLt
  omega

@[simp] theorem nib2_joinNibs (a b c d : BitVec 4) : nib (joinNibs a b c d) 2 = b := by
  apply BitVec.eq_of_toNat_eq
  simp only [nib, toNat_field, toNat_joinNibs]
  have := a.isLt; have := b.isLt; have := c.isLt; have := d.isLt
  omega

@[simp] theorem nib3_joinNibs (a b c d : BitVec 4) : nib (joinNibs a b c d) 3 = a := by
  apply BitVec.eq_of_toNat_eq
  simp only [nib, toNat_field, toNat_joinNibs]
  have := a.isLt; have := b.isLt; have := c.isLt; have := d.isLt
  omega

/-- A counter is made of its four nibbles. -/
theorem joinNibs_nib (w : Word16) : joinNibs (nib w 3) (nib w 2) (nib w 1) (nib w 0) = w := by
  apply BitVec.eq_of_toNat_eq
  rw [toNat_joinNibs]
  simp only [nib, toNat_field]
  have := w.isLt
  omega

end Sys2Proof.Machine
end

