-- ==== Sys2Proof/Laws/State.lean ====
section
/-! SUPPORT. One lemma per field per update of the state, true by rfl, so that no proof unfolds a record update; and what
each channel reads after a channel is replaced. -/

namespace Sys2Proof.Machine

/-! ## `returning` -/

@[simp] theorem returning_params (s : State) (r : Result) : (s.returning r).params = s.params := rfl
@[simp] theorem returning_clock (s : State) (r : Result) : (s.returning r).clock = s.clock := rfl
@[simp] theorem returning_clockExists (s : State) (r : Result) : (s.returning r).clockExists = s.clockExists := rfl
@[simp] theorem returning_pitExists (s : State) (r : Result) : (s.returning r).pitExists = s.pitExists := rfl
@[simp] theorem returning_bus (s : State) (r : Result) : (s.returning r).bus = s.bus := rfl
@[simp] theorem returning_rams (s : State) (r : Result) : (s.returning r).rams = s.rams := rfl
@[simp] theorem returning_roms (s : State) (r : Result) : (s.returning r).roms = s.roms := rfl
@[simp] theorem returning_pit (s : State) (r : Result) : (s.returning r).pit = s.pit := rfl
@[simp] theorem returning_ppi (s : State) (r : Result) : (s.returning r).ppi = s.ppi := rfl
@[simp] theorem returning_keyboard (s : State) (r : Result) : (s.returning r).keyboard = s.keyboard := rfl
@[simp] theorem returning_faults (s : State) (r : Result) : (s.returning r).faults = s.faults := rfl
@[simp] theorem returning_pending (s : State) (r : Result) : (s.returning r).pending = s.pending := rfl
@[simp] theorem returning_result (s : State) (r : Result) : (s.returning r).result = r := rfl
@[simp] theorem returning_trace (s : State) (r : Result) : (s.returning r).trace = s.trace := rfl
@[simp] theorem returning_draws (s : State) (r : Result) : (s.returning r).draws = s.draws := rfl
@[simp] theorem returning_channel (s : State) (r : Result) (c : Chan) : (s.returning r).channel c = s.channel c := rfl
@[simp] theorem returning_returning (s : State) (r r' : Result) : (s.returning r).returning r' = s.returning r' := rfl

/-! ## `setChannel` -/

@[simp] theorem setChannel_params (s : State) (c : Chan) (x : Channel) : (s.setChannel c x).params = s.params := rfl
@[simp] theorem setChannel_clock (s : State) (c : Chan) (x : Channel) : (s.setChannel c x).clock = s.clock := rfl
@[simp] theorem setChannel_clockExists (s : State) (c : Chan) (x : Channel) : (s.setChannel c x).clockExists = s.clockExists := rfl
@[simp] theorem setChannel_pitExists (s : State) (c : Chan) (x : Channel) : (s.setChannel c x).pitExists = s.pitExists := rfl
@[simp] theorem setChannel_bus (s : State) (c : Chan) (x : Channel) : (s.setChannel c x).bus = s.bus := rfl
@[simp] theorem setChannel_rams (s : State) (c : Chan) (x : Channel) : (s.setChannel c x).rams = s.rams := rfl
@[simp] theorem setChannel_roms (s : State) (c : Chan) (x : Channel) : (s.setChannel c x).roms = s.roms := rfl
@[simp] theorem setChannel_ppi (s : State) (c : Chan) (x : Channel) : (s.setChannel c x).ppi = s.ppi := rfl
@[simp] theorem setChannel_keyboard (s : State) (c : Chan) (x : Channel) : (s.setChannel c x).keyboard = s.keyboard := rfl
@[simp] theorem setChannel_faults (s : State) (c : Chan) (x : Channel) : (s.setChannel c x).faults = s.faults := rfl
@[simp] theorem setChannel_pending (s : State) (c : Chan) (x : Channel) : (s.setChannel c x).pending = s.pending := rfl
@[simp] theorem setChannel_result (s : State) (c : Chan) (x : Channel) : (s.setChannel c x).result = s.result := rfl
@[simp] theorem setChannel_trace (s : State) (c : Chan) (x : Channel) : (s.setChannel c x).trace = s.trace := rfl
@[simp] theorem setChannel_draws (s : State) (c : Chan) (x : Channel) : (s.setChannel c x).draws = s.draws := rfl

/-- The channel written reads as written. -/
@[simp] theorem setChannel_same (s : State) (c : Chan) (x : Channel) : (s.setChannel c x).channel c = x := by
  cases c <;> rfl

/-- Every other channel reads as before (spec/10_state.md R32). -/
theorem setChannel_other (s : State) {c c' : Chan} (x : Channel) (h : c' ≠ c) :
    (s.setChannel c x).channel c' = s.channel c' := by
  cases c <;> cases c' <;> first | rfl | exact absurd rfl h

/-! ## `record` -/

@[simp] theorem record_params (s : State) (r : FaultRecord) : (s.record r).params = s.params := by unfold State.record; split <;> rfl
@[simp] theorem record_clock (s : State) (r : FaultRecord) : (s.record r).clock = s.clock := by unfold State.record; split <;> rfl
@[simp] theorem record_clockExists (s : State) (r : FaultRecord) : (s.record r).clockExists = s.clockExists := by unfold State.record; split <;> rfl
@[simp] theorem record_pitExists (s : State) (r : FaultRecord) : (s.record r).pitExists = s.pitExists := by unfold State.record; split <;> rfl
@[simp] theorem record_bus (s : State) (r : FaultRecord) : (s.record r).bus = s.bus := by unfold State.record; split <;> rfl
@[simp] theorem record_rams (s : State) (r : FaultRecord) : (s.record r).rams = s.rams := by unfold State.record; split <;> rfl
@[simp] theorem record_roms (s : State) (r : FaultRecord) : (s.record r).roms = s.roms := by unfold State.record; split <;> rfl
@[simp] theorem record_pit (s : State) (r : FaultRecord) : (s.record r).pit = s.pit := by unfold State.record; split <;> rfl
@[simp] theorem record_ppi (s : State) (r : FaultRecord) : (s.record r).ppi = s.ppi := by unfold State.record; split <;> rfl
@[simp] theorem record_keyboard (s : State) (r : FaultRecord) : (s.record r).keyboard = s.keyboard := by unfold State.record; split <;> rfl
@[simp] theorem record_pending (s : State) (r : FaultRecord) : (s.record r).pending = s.pending := by unfold State.record; split <;> rfl
@[simp] theorem record_trace (s : State) (r : FaultRecord) : (s.record r).trace = s.trace := by unfold State.record; split <;> rfl
@[simp] theorem record_draws (s : State) (r : FaultRecord) : (s.record r).draws = s.draws := by unfold State.record; split <;> rfl
@[simp] theorem record_channel (s : State) (r : FaultRecord) (c : Chan) : (s.record r).channel c = s.channel c := by
  unfold State.record; split <;> rfl

/-- Recording adds the record, at most once. -/
theorem record_faults (s : State) (r : FaultRecord) :
    (s.record r).faults = if s.faults.contains r then s.faults else s.faults ++ [r] := by
  unfold State.record; split <;> rfl

/-- A recorded outcome is in `faults`, with everything that was there. -/
theorem mem_record {s : State} {r x : FaultRecord} : x ∈ (s.record r).faults ↔ x = r ∨ x ∈ s.faults := by
  rw [record_faults]
  split
  · rename_i h
    have h := List.contains_iff_mem.mp h
    constructor
    · exact Or.inr
    · rintro (rfl | h') <;> assumption
  · simp [or_comm]

/-! ## `drawn`, `pitTick` -/

@[simp] theorem drawn_draws (s : State) : s.drawn.draws = s.draws + 1 := rfl
@[simp] theorem drawn_params (s : State) : s.drawn.params = s.params := rfl
@[simp] theorem drawn_clock (s : State) : s.drawn.clock = s.clock := rfl
@[simp] theorem drawn_clockExists (s : State) : s.drawn.clockExists = s.clockExists := rfl
@[simp] theorem drawn_pitExists (s : State) : s.drawn.pitExists = s.pitExists := rfl
@[simp] theorem drawn_bus (s : State) : s.drawn.bus = s.bus := rfl
@[simp] theorem drawn_rams (s : State) : s.drawn.rams = s.rams := rfl
@[simp] theorem drawn_roms (s : State) : s.drawn.roms = s.roms := rfl
@[simp] theorem drawn_pit (s : State) : s.drawn.pit = s.pit := rfl
@[simp] theorem drawn_channel (s : State) (c : Chan) : s.drawn.channel c = s.channel c := rfl
@[simp] theorem drawn_ppi (s : State) : s.drawn.ppi = s.ppi := rfl
@[simp] theorem drawn_keyboard (s : State) : s.drawn.keyboard = s.keyboard := rfl
@[simp] theorem drawn_faults (s : State) : s.drawn.faults = s.faults := rfl
@[simp] theorem drawn_pending (s : State) : s.drawn.pending = s.pending := rfl
@[simp] theorem drawn_trace (s : State) : s.drawn.trace = s.trace := rfl

@[simp] theorem pitTick_params (s : State) : s.pitTick.params = s.params := rfl
@[simp] theorem pitTick_clock (s : State) : s.pitTick.clock = s.clock := rfl
@[simp] theorem pitTick_clockExists (s : State) : s.pitTick.clockExists = s.clockExists := rfl
@[simp] theorem pitTick_pitExists (s : State) : s.pitTick.pitExists = s.pitExists := rfl
@[simp] theorem pitTick_bus (s : State) : s.pitTick.bus = s.bus := rfl
@[simp] theorem pitTick_rams (s : State) : s.pitTick.rams = s.rams := rfl
@[simp] theorem pitTick_roms (s : State) : s.pitTick.roms = s.roms := rfl
@[simp] theorem pitTick_ppi (s : State) : s.pitTick.ppi = s.ppi := rfl
@[simp] theorem pitTick_keyboard (s : State) : s.pitTick.keyboard = s.keyboard := rfl
@[simp] theorem pitTick_faults (s : State) : s.pitTick.faults = s.faults := rfl
@[simp] theorem pitTick_pending (s : State) : s.pitTick.pending = s.pending := rfl
@[simp] theorem pitTick_result (s : State) : s.pitTick.result = s.result := rfl
@[simp] theorem pitTick_trace (s : State) : s.pitTick.trace = s.trace := rfl
@[simp] theorem pitTick_draws (s : State) : s.pitTick.draws = s.draws := rfl

/-- The handler ticks every channel (spec/44_pit_counting.md R200). -/
@[simp] theorem pitTick_channel (s : State) (c : Chan) : s.pitTick.channel c = (s.channel c).tick := by
  cases c <;> rfl

end Sys2Proof.Machine
end

