-- ==== Sys2Proof/Laws/Clock.lean ====
section
/-! SUPPORT. What a notification and a base tick do and leave alone (spec/40_clock.md R104, R106, R110), and what a construction of
the clock answers (R100). -/

namespace Sys2Proof.Machine

/-! ## One listener, a list of listeners, a notification -/

/-- A listener writes only the channel file (R110). -/
theorem runListener_eq (l : Listener) (s : State) :
    runListener l s = { s with pit := if l = .pitTick then s.pit.tick else s.pit } := by
  cases l <;> simp [runListener, State.pitTick]

/-- The channel file after the PIT's handler has run `n` times. -/
def tickPit : Nat → Pit → Pit
  | 0, p => p
  | n + 1, p => tickPit n p.tick

/-- How many of a list's invocations run the PIT's handler. -/
def pitTickCount (ls : List Listener) : Nat := ls.count .pitTick

/-- The trace entries of a notification that finds the tick count at `n`. -/
def eventsOf (kind : EventKind) (n : Nat) (ls : List Listener) : List Event :=
  ls.map fun l => { kind := kind, listener := l, totalTicks := n }

/-- Invoking a list of listeners appends their events and runs the PIT's handler once per occurrence; nothing else. -/
theorem invokeAll_eq (kind : EventKind) (ls : List Listener) (s : State) :
    invokeAll kind ls s = { s with
      pit := tickPit (pitTickCount ls) s.pit
      trace := s.trace ++ eventsOf kind s.clock.totalTicks ls } := by
  induction ls generalizing s with
  | nil => simp [invokeAll, tickPit, pitTickCount, eventsOf]
  | cons l rest ih =>
    rw [invokeAll, ih, invoke, runListener_eq]
    cases l <;> simp [pitTickCount, tickPit, eventsOf]

/-- A notification appends the events of its listeners and runs the PIT's handler; nothing else (R104). -/
theorem notify_eq (kind : EventKind) (s : State) :
    notify kind s = { s with
      pit := tickPit (pitTickCount (s.clock.listeners kind)) s.pit
      trace := s.trace ++ eventsOf kind s.clock.totalTicks (s.clock.listeners kind) } :=
  invokeAll_eq kind _ s

@[simp] theorem notify_clock (kind : EventKind) (s : State) : (notify kind s).clock = s.clock := by rw [notify_eq]
@[simp] theorem notify_params (kind : EventKind) (s : State) : (notify kind s).params = s.params := by rw [notify_eq]
@[simp] theorem notify_clockExists (kind : EventKind) (s : State) : (notify kind s).clockExists = s.clockExists := by rw [notify_eq]
@[simp] theorem notify_pitExists (kind : EventKind) (s : State) : (notify kind s).pitExists = s.pitExists := by rw [notify_eq]
@[simp] theorem notify_bus (kind : EventKind) (s : State) : (notify kind s).bus = s.bus := by rw [notify_eq]
@[simp] theorem notify_rams (kind : EventKind) (s : State) : (notify kind s).rams = s.rams := by rw [notify_eq]
@[simp] theorem notify_roms (kind : EventKind) (s : State) : (notify kind s).roms = s.roms := by rw [notify_eq]
@[simp] theorem notify_ppi (kind : EventKind) (s : State) : (notify kind s).ppi = s.ppi := by rw [notify_eq]
@[simp] theorem notify_keyboard (kind : EventKind) (s : State) : (notify kind s).keyboard = s.keyboard := by rw [notify_eq]
@[simp] theorem notify_faults (kind : EventKind) (s : State) : (notify kind s).faults = s.faults := by rw [notify_eq]
@[simp] theorem notify_pending (kind : EventKind) (s : State) : (notify kind s).pending = s.pending := by rw [notify_eq]
@[simp] theorem notify_result (kind : EventKind) (s : State) : (notify kind s).result = s.result := by rw [notify_eq]
@[simp] theorem notify_draws (kind : EventKind) (s : State) : (notify kind s).draws = s.draws := by rw [notify_eq]

/-! ## The base tick -/

/-- A property of the channel file that the PIT's handler keeps is kept by any number of its runs. -/
theorem tickPit_keeps {P : Pit → Prop} (h : ∀ p, P p → P p.tick) (n : Nat) (p : Pit) (hp : P p) : P (tickPit n p) := by
  induction n generalizing p with
  | zero => exact hp
  | succ n ih => exact ih _ (h _ hp)

/-- A property of states that a notification and an advance of the clock keep is kept by a base tick. -/
theorem baseTick_keeps {P : State → Prop} (hn : ∀ k s, P s → P (notify k s))
    (ha : ∀ s, P s → P { s with clock := s.clock.advance }) (s : State) (hs : P s) : P s.baseTick := by
  unfold State.baseTick notifyPhase
  dsimp only
  have h := ha _ (hn .tick s hs)
  split
  · exact hn _ _ h
  · split
    · exact hn _ _ (hn _ _ h)
    · exact h

@[simp] theorem baseTick_clock (s : State) : s.baseTick.clock = s.clock.advance := by
  simp only [State.baseTick, notifyPhase]
  split <;> (try split) <;> simp

@[simp] theorem baseTick_params (s : State) : s.baseTick.params = s.params := by
  simp only [State.baseTick, notifyPhase]
  split <;> (try split) <;> simp

@[simp] theorem baseTick_clockExists (s : State) : s.baseTick.clockExists = s.clockExists := by
  simp only [State.baseTick, notifyPhase]
  split <;> (try split) <;> simp

@[simp] theorem baseTick_pitExists (s : State) : s.baseTick.pitExists = s.pitExists := by
  simp only [State.baseTick, notifyPhase]
  split <;> (try split) <;> simp

@[simp] theorem baseTick_bus (s : State) : s.baseTick.bus = s.bus := by
  simp only [State.baseTick, notifyPhase]
  split <;> (try split) <;> simp

@[simp] theorem baseTick_rams (s : State) : s.baseTick.rams = s.rams := by
  simp only [State.baseTick, notifyPhase]
  split <;> (try split) <;> simp

@[simp] theorem baseTick_roms (s : State) : s.baseTick.roms = s.roms := by
  simp only [State.baseTick, notifyPhase]
  split <;> (try split) <;> simp

@[simp] theorem baseTick_ppi (s : State) : s.baseTick.ppi = s.ppi := by
  simp only [State.baseTick, notifyPhase]
  split <;> (try split) <;> simp

@[simp] theorem baseTick_keyboard (s : State) : s.baseTick.keyboard = s.keyboard := by
  simp only [State.baseTick, notifyPhase]
  split <;> (try split) <;> simp

@[simp] theorem baseTick_faults (s : State) : s.baseTick.faults = s.faults := by
  simp only [State.baseTick, notifyPhase]
  split <;> (try split) <;> simp

@[simp] theorem baseTick_pending (s : State) : s.baseTick.pending = s.pending := by
  simp only [State.baseTick, notifyPhase]
  split <;> (try split) <;> simp

@[simp] theorem baseTick_draws (s : State) : s.baseTick.draws = s.draws := by
  simp only [State.baseTick, notifyPhase]
  split <;> (try split) <;> simp

/-- The PIT's handler runs some number of times in a base tick, and the channel file changes in no other way. -/
theorem baseTick_pit (s : State) : ∃ n, s.baseTick.pit = tickPit n s.pit := by
  have comp : ∀ (n m : Nat) (p : Pit), tickPit m (tickPit n p) = tickPit (n + m) p := by
    intro n
    induction n with
    | zero => intro m p; simp [tickPit]
    | succ n ih => intro m p; rw [tickPit, ih, Nat.succ_add, tickPit]
  refine baseTick_keeps (P := fun t => ∃ n, t.pit = tickPit n s.pit) ?_ ?_ s ⟨0, rfl⟩
  · rintro k t ⟨n, h⟩
    refine ⟨n + pitTickCount (t.clock.listeners k), ?_⟩
    rw [notify_eq]; simp only [h, comp]
  · rintro t ⟨n, h⟩
    exact ⟨n, h⟩

/-- The phase of a tick, as a number (90_conflicts.md C3). -/
theorem nextPhase_val (p : Fin 4) : (nextPhase p).val = (p.val + 1) % 4 := by
  revert p; decide

/-! ## Construction of the clock -/

/-- The check of a period reads the sign of the real number it is (40_clock.md R100). -/
theorem periodPositive_iff {period : Period} {r : ℝ} (h : period.Names r) : periodPositive period = true ↔ 0 < r := by
  cases period with
  | rational q =>
    subst h
    simp [periodPositive]
  | irrational positive name => exact h.2.symm

/-- What CLK_CONSTRUCT answers: InvalidTickPeriod, a refusal where a clock exists, or a clock made anew (R100, R101). -/
theorem execClkConstruct_cases (period : Period) (s : State) :
    (periodPositive period = false ∧ execClkConstruct period s = raise (.invalidTickPeriod period) s) ∨
    (periodPositive period = true ∧ s.clockExists = true ∧ execClkConstruct period s = .refused .clockAlreadyConstructed) ∨
    (periodPositive period = true ∧ s.clockExists = false ∧ execClkConstruct period s =
      .next ({ s with clockExists := true, clock := Clock.constructed period }.returning .ok)) := by
  unfold execClkConstruct
  cases periodPositive period <;> cases s.clockExists <;> simp

end Sys2Proof.Machine
end

