-- ==== Sys2Proof/Laws/Memory.lean ====
section
/-! SUPPORT. The laws of a RAM device's memory: a read after a write, and that every operation keeps the canonical form. -/

namespace Sys2Proof.Machine

/-- A read after a write to the same offset gives the byte written. -/
@[simp] theorem get_put_same (m : Memory) (i : Nat) (v : Byte) : Memory.get? (Memory.put m i v) i = some v := by
  induction m with
  | nil => simp [Memory.put, Memory.get?]
  | cons cell rest ih =>
    obtain ⟨a, b⟩ := cell
    unfold Memory.put
    split
    · simp [Memory.get?]
    · split
      · next h => simp [Memory.get?, h]
      · next h => simpa [Memory.get?, Ne.symm h] using ih

/-- A write leaves every other offset alone. -/
theorem get_put_other (m : Memory) {i j : Nat} (v : Byte) (h : j ≠ i) :
    Memory.get? (Memory.put m i v) j = Memory.get? m j := by
  induction m with
  | nil => simp [Memory.put, Memory.get?, Ne.symm h]
  | cons cell rest ih =>
    obtain ⟨a, b⟩ := cell
    unfold Memory.put
    split
    · simp [Memory.get?, Ne.symm h]
    · split
      · next h' => subst h'; simp [Memory.get?, Ne.symm h]
      · simp [Memory.get?, ih]

/-- Writing keeps the offsets rising above a bound below the written offset. -/
theorem risingFrom_put (m : Memory) (lo : Option Nat) (i : Nat) (v : Byte)
    (hm : Memory.risingFrom lo m = true) (hi : ∀ l ∈ lo, l < i) :
    Memory.risingFrom lo (Memory.put m i v) = true := by
  induction m generalizing lo with
  | nil => cases lo <;> simp_all [Memory.put, Memory.risingFrom]
  | cons cell rest ih =>
    obtain ⟨a, b⟩ := cell
    have hrest : Memory.risingFrom (some a) rest = true := by
      cases lo <;> simp_all [Memory.risingFrom]
    unfold Memory.put
    split
    · cases lo <;> simp_all [Memory.risingFrom]
    · split
      · next h => subst h; cases lo <;> simp_all [Memory.risingFrom]
      · next h1 h2 =>
        have := ih (some a) hrest (by simpa using by omega)
        cases lo <;> simp_all [Memory.risingFrom]

/-- The empty memory is canonical. -/
@[simp] theorem wf_nil : Memory.wf [] = true := rfl

/-- A write keeps the canonical form. -/
theorem wf_put (m : Memory) (i : Nat) (v : Byte) (h : Memory.wf m = true) : Memory.wf (Memory.put m i v) = true :=
  risingFrom_put m none i v h (by simp)

/-- The cells after a write are the written one and earlier ones. -/
theorem mem_put {m : Memory} {i : Nat} {v : Byte} {cell : Host.Cell} (h : cell ∈ Memory.put m i v) :
    cell.1 = i ∨ cell ∈ m := by
  induction m with
  | nil => simp_all [Memory.put]
  | cons c rest ih =>
    obtain ⟨a, b⟩ := c
    unfold Memory.put at h
    split at h
    · rcases List.mem_cons.mp h with rfl | h
      · exact .inl rfl
      · exact .inr h
    · split at h
      · next h' =>
        rcases List.mem_cons.mp h with rfl | h
        · exact .inl h'.symm
        · exact .inr (List.mem_cons_of_mem _ h)
      · rcases List.mem_cons.mp h with rfl | h
        · exact .inr List.mem_cons_self
        · exact (ih h).imp id (List.mem_cons_of_mem _)

/-- Canonical memories that read alike are equal. -/
theorem get?_lt_of_rising {m : Memory} {lo : Nat} (h : Memory.risingFrom (some lo) m = true) {i : Nat} (hi : i ≤ lo) :
    Memory.get? m i = none := by
  induction m generalizing lo with
  | nil => rfl
  | cons cell rest ih =>
    obtain ⟨a, b⟩ := cell
    simp only [Memory.risingFrom, Bool.and_eq_true, decide_eq_true_eq] at h
    simp only [Memory.get?]
    rw [if_neg (by omega)]
    exact ih h.2 (by omega)

/-- What a RAM byte reads after a write to it. -/
@[simp] theorem ramByte_put_same (n : Nat) (m : Memory) (i : Nat) (v : Byte) : ramByte n (Memory.put m i v) i = v := by
  simp [ramByte]

/-- What a RAM byte reads after a write elsewhere. -/
theorem ramByte_put_other (n : Nat) (m : Memory) {i j : Nat} (v : Byte) (h : j ≠ i) :
    ramByte n (Memory.put m i v) j = ramByte n m j := by
  simp [ramByte, get_put_other m v h]

end Sys2Proof.Machine
end

