-- ==== Sys2Proof/Laws/Ops.lean ====
section
/-! SUPPORT. One lemma per shared operation, saying everything it can answer; provers cite it and do not unfold the
operation. -/

namespace Sys2Proof.Machine

/-- An error answers the state with the error returned, and nothing written (spec/60_exceptions.md R246). -/
theorem raise_next {e : HwError} {s t : State} (h : raise e s = .next t) : t = s.returning (.error e) := by
  cases h; rfl

/-- An Undefined access answers the state with the record and the outcome returned (R247). -/
theorem undefinedAccess_next {u : UndefinedAccess} {s t : State} (h : undefinedAccess u s = .next t) :
    t = (s.record (.undefined u)).returning (.undefined u) := by
  cases h; rfl

/-- A Refused form answers the state with the record and the outcome returned (R248). -/
theorem refuseForm_next {r : RefusedForm} {s t : State} (h : refuseForm r s = .next t) :
    t = (s.record (.refused r)).returning (.refused r) := by
  cases h; rfl

/-- A mode-word write is refused under the policy, or writes the selected channel alone (42_pit_control.md R157). -/
theorem writeModeWord_next {c : Chan} {v : Byte} {f : Channel → Channel} {s t : State}
    (h : writeModeWord c v f s = .next t) :
    (refusesMode s.params v = true ∧ t = (s.record (.refused (.modeWord v))).returning (.refused (.modeWord v))) ∨
    (refusesMode s.params v = false ∧
      t = (s.setChannel c (f { s.channel c with controlWord := v })).returning .ok) := by
  unfold writeModeWord at h
  split at h
  · next hr => exact .inl ⟨hr, refuseForm_next h⟩
  · next hr => cases h; exact .inr ⟨by simpa using hr, rfl⟩

/-- A RAM access finds no device, or is out of range and raises, or reaches the device at an offset below its size. -/
theorem withRam_cases (n addr : Nat) (k : Ram → Nat → Answer) (s : State) :
    (s.rams[n]? = none ∧ withRam n addr k s = .refused (.noSuchDevice (.ram n))) ∨
    ∃ d, s.rams[n]? = some d ∧
      ((inRange d.base d.size addr = false ∧ withRam n addr k s = raise (.addressRange addr) s) ∨
       (inRange d.base d.size addr = true ∧ (offsetOf d.base addr : Int) < d.size ∧
         withRam n addr k s = k d (offsetOf d.base addr))) := by
  unfold withRam
  cases hd : s.rams[n]? with
  | none => exact .inl ⟨rfl, rfl⟩
  | some d =>
    refine .inr ⟨d, rfl, ?_⟩
    cases hr : inRange d.base d.size addr with
    | false => exact .inl ⟨rfl, by simp [hr]⟩
    | true =>
      refine .inr ⟨rfl, ?_, by simp [hr]⟩
      simp only [inRange, Bool.and_eq_true, decide_eq_true_eq] at hr
      unfold offsetOf
      omega

/-- A ROM access finds no device, or is out of range and raises, or reaches the device at an offset below its size. -/
theorem withRom_cases (n addr : Nat) (k : Rom → Nat → Answer) (s : State) :
    (s.roms[n]? = none ∧ withRom n addr k s = .refused (.noSuchDevice (.rom n))) ∨
    ∃ d, s.roms[n]? = some d ∧
      ((inRange d.base d.bytes.length addr = false ∧ withRom n addr k s = raise (.addressRange addr) s) ∨
       (inRange d.base d.bytes.length addr = true ∧ offsetOf d.base addr < d.bytes.length ∧
         withRom n addr k s = k d (offsetOf d.base addr))) := by
  unfold withRom
  cases hd : s.roms[n]? with
  | none => exact .inl ⟨rfl, rfl⟩
  | some d =>
    refine .inr ⟨d, rfl, ?_⟩
    cases hr : inRange d.base d.bytes.length addr with
    | false => exact .inl ⟨rfl, by simp [hr]⟩
    | true =>
      refine .inr ⟨rfl, ?_, by simp [hr]⟩
      simp only [inRange, Bool.and_eq_true, decide_eq_true_eq] at hr
      unfold offsetOf
      omega

/-- Arming writes `running` alone, and only in mode 0 (43_pit_data.md R171). -/
theorem arm_eq (x : Channel) : x.arm = { x with running := if x.modeZero then x.gate else x.running } := by
  unfold Channel.arm; split <;> rfl

/-- A gate change writes `gate`, and `running` in mode 0 (44_pit_counting.md R205). -/
theorem setGate_eq (x : Channel) (level : Bool) :
    x.setGate level = { x with gate := level, running := if x.modeZero then level else x.running } := by
  unfold Channel.setGate; split <;> rfl

/-- What BUS_REGISTER answers (41_bus.md R122, R123; 60_exceptions.md R251). -/
theorem execBusRegister_cases (d : DeviceRef) (s : State) :
    (s.deviceEntry d = none ∧ execBusRegister d s = .refused (.noSuchDevice d)) ∨
    ∃ x, s.deviceEntry d = some x ∧
      ((x.configOk = false ∧ execBusRegister d s = refuseForm (.deviceConfiguration x) s) ∨
       (x.configOk = true ∧ ∃ e, s.bus.find? (overlaps x) = some e ∧ execBusRegister d s = raise (.overlap x e) s) ∨
       (x.configOk = true ∧ s.bus.find? (overlaps x) = none ∧
         execBusRegister d s = .next ({ s with bus := s.bus ++ [x] }.returning .ok))) := by
  unfold execBusRegister
  cases hx : s.deviceEntry d with
  | none => exact .inl ⟨rfl, rfl⟩
  | some x =>
    refine .inr ⟨x, rfl, ?_⟩
    cases hc : x.configOk with
    | false => exact .inl ⟨rfl, by simp [hc]⟩
    | true =>
      cases he : s.bus.find? (overlaps x) with
      | some e => exact .inr (.inl ⟨rfl, e, rfl, by simp [hc, he]⟩)
      | none => exact .inr (.inr ⟨rfl, rfl, by simp [hc, he]⟩)

/-- What PIT_CONSTRUCT answers: a refusal where the PIT exists, or the PIT made anew (42_pit_control.md R150). -/
theorem execPitConstruct_cases (s : State) :
    (s.pitExists = true ∧ execPitConstruct s = .refused .pitAlreadyConstructed) ∨
    (s.pitExists = false ∧ execPitConstruct s = .next ({ s with
      pitExists := true, pit := Pit.zero, clock := s.clock.subscribe .tick .pitTick }.returning .ok)) := by
  unfold execPitConstruct
  cases s.pitExists <;> simp

/-- A device's registered range carries the device it is of (41_bus.md R120). -/
theorem deviceEntry_device {s : State} {d : DeviceRef} {e : BusEntry} (h : s.deviceEntry d = some e) : e.device = d := by
  cases d with
  | ram n => simp only [State.deviceEntry, Option.map_eq_some_iff] at h; obtain ⟨r, _, rfl⟩ := h; rfl
  | rom n => simp only [State.deviceEntry, Option.map_eq_some_iff] at h; obtain ⟨r, _, rfl⟩ := h; rfl
  | pit =>
    simp only [State.deviceEntry] at h
    split at h <;> cases h
    rfl
  | ppi => cases h; rfl

end Sys2Proof.Machine
end

