-- ==== Sys2Proof/Laws/PerInstr.lean ====
section
/-! SUPPORT. The per-instruction family `RoundTrip`: an operation an agent can issue, encoded and decoded, is itself
(spec/30_encoding.md R81 to R95). One lemma per constructor of `Instr`. -/

namespace Sys2Proof.Laws

/-- The family's statement about one operation, for every decoder's view that can issue it. -/
def RoundTrip.Statement (i : Instr) : Prop :=
  ∀ ctx : DecodeCtx, i.wf ctx = true → decode ctx (encode i) = .ok i

/-- A transaction word of the PIT, decoded (30_encoding.md R88). -/
theorem decode_ptw (ctx : DecodeCtx) (w : BitVec 1) (p : BitVec 2) (d : Byte) :
    decode ctx (.ptw (portWord w p d).toNat) = .ok (decodePtw ctx (portWord w p d)) := by
  simp [decode, portWord_lt]

/-- A transaction word of the PeripheralInterface, decoded (30_encoding.md R94). -/
theorem decode_ppw (ctx : DecodeCtx) (w : BitVec 1) (p : BitVec 2) (d : Byte) :
    decode ctx (.ppw (portWord w p d).toNat) = .ok (decodePpw (portWord w p d)) := by
  simp [decode, portWord_lt]

/-- A mode-word write of a channel, decoded. -/
theorem decode_modeWord (ctx : DecodeCtx) (sc am : BitVec 2) (m : BitVec 3) (bcd : BitVec 1) :
    decode ctx (modeWordRequest sc am m bcd) = .ok (decodeModeWord (modeByte sc am m bcd)) := by
  simp [modeWordRequest, decode_ptw, decodePtw]

/-- A data write, decoded by the channel's access mode. -/
theorem decode_dataWrite (ctx : DecodeCtx) (c : Chan) (v : Byte) :
    decode ctx (dataWriteRequest c v) = .ok (decodeDataWrite (ctx.am c) c v) := by
  simp [dataWriteRequest, decode_ptw, decodePtw]

/-- A data read, decoded by the channel's access mode. -/
theorem decode_dataRead (ctx : DecodeCtx) (c : Chan) :
    decode ctx (dataReadRequest c) = .ok (decodeDataRead (ctx.am c) c) := by
  simp [dataReadRequest, decode_ptw, decodePtw]

namespace RoundTrip

theorem pitCwSc3 (am : BitVec 2) (m : BitVec 3) (bcd : BitVec 1) : Statement (.pitCwSc3 am m bcd) := by
  intro ctx _
  simp [encode, decode_modeWord, decodeModeWord]

theorem pitCwLatch (c : Chan) (m : BitVec 3) (bcd : BitVec 1) : Statement (.pitCwLatch c m bcd) := by
  intro ctx _
  simp [encode, decode_modeWord, decodeModeWord]

theorem pitCwSetLsb (c : Chan) (m : BitVec 3) (bcd : BitVec 1) : Statement (.pitCwSetLsb c m bcd) := by
  intro ctx _
  simp [encode, decode_modeWord, decodeModeWord]

theorem pitCwSetMsb (c : Chan) (m : BitVec 3) (bcd : BitVec 1) : Statement (.pitCwSetMsb c m bcd) := by
  intro ctx _
  simp [encode, decode_modeWord, decodeModeWord]

theorem pitCwSetLsbMsb (c : Chan) (m : BitVec 3) (bcd : BitVec 1) : Statement (.pitCwSetLsbMsb c m bcd) := by
  intro ctx _
  simp [encode, decode_modeWord, decodeModeWord]

theorem pitWrDataAm0 (c : Chan) (v : Byte) : Statement (.pitWrDataAm0 c v) := by
  intro ctx h
  simp only [Instr.wf, beq_iff_eq] at h
  simp [encode, decode_dataWrite, h, decodeDataWrite]

theorem pitWrDataLsb (c : Chan) (v : Byte) : Statement (.pitWrDataLsb c v) := by
  intro ctx h
  simp only [Instr.wf, beq_iff_eq] at h
  simp [encode, decode_dataWrite, h, decodeDataWrite]

theorem pitWrDataMsb (c : Chan) (v : Byte) : Statement (.pitWrDataMsb c v) := by
  intro ctx h
  simp only [Instr.wf, beq_iff_eq] at h
  simp [encode, decode_dataWrite, h, decodeDataWrite]

theorem pitWrDataLsbMsb (c : Chan) (v : Byte) : Statement (.pitWrDataLsbMsb c v) := by
  intro ctx h
  simp only [Instr.wf, beq_iff_eq] at h
  simp [encode, decode_dataWrite, h, decodeDataWrite]

theorem pitRdLatched (c : Chan) : Statement (.pitRdLatched c) := by
  intro ctx h
  simp only [Instr.wf, beq_iff_eq] at h
  simp [encode, decode_dataRead, h, decodeDataRead]

theorem pitRdLsb (c : Chan) : Statement (.pitRdLsb c) := by
  intro ctx h
  simp only [Instr.wf, beq_iff_eq] at h
  simp [encode, decode_dataRead, h, decodeDataRead]

theorem pitRdMsb (c : Chan) : Statement (.pitRdMsb c) := by
  intro ctx h
  simp only [Instr.wf, beq_iff_eq] at h
  simp [encode, decode_dataRead, h, decodeDataRead]

theorem pitRdLsbMsb (c : Chan) : Statement (.pitRdLsbMsb c) := by
  intro ctx h
  simp only [Instr.wf, beq_iff_eq] at h
  simp [encode, decode_dataRead, h, decodeDataRead]

theorem pitRdCw : Statement .pitRdCw := fun _ _ => rfl

theorem pitBadOffset (acc : Access) : Statement (.pitBadOffset acc) := by
  intro ctx h
  simp only [Instr.wf, Bool.not_eq_true'] at h
  simp [encode, decode, decodePitDirect, h]

/-- PIT_TICK is issued by no agent (30_encoding.md R95), so nothing is claimed of it. -/
theorem pitTick : Statement .pitTick := fun _ h => nomatch h

theorem pitSetGate (c : Chan) (level : Bool) : Statement (.pitSetGate c level) := fun _ _ => rfl
theorem pitConstruct : Statement .pitConstruct := fun _ _ => rfl
theorem clkConstruct (period : Period) : Statement (.clkConstruct period) := fun _ _ => rfl
theorem clkSubscribe (kind : EventKind) (l : Callback) : Statement (.clkSubscribe kind l) := fun _ _ => rfl
theorem clkStart : Statement .clkStart := fun _ _ => rfl
theorem clkStop : Statement .clkStop := fun _ _ => rfl
theorem clkTick : Statement .clkTick := fun _ _ => rfl
theorem clkTotalTicks : Statement .clkTotalTicks := fun _ _ => rfl
theorem busRegister (d : DeviceRef) : Statement (.busRegister d) := fun _ _ => rfl
theorem busRead (addr : Nat) : Statement (.busRead addr) := fun _ _ => rfl
theorem busWrite (addr : Nat) (v : Byte) : Statement (.busWrite addr v) := fun _ _ => rfl
theorem ramConstruct (base size : Int) : Statement (.ramConstruct base size) := fun _ _ => rfl
theorem ramRead (n addr : Nat) : Statement (.ramRead n addr) := fun _ _ => rfl
theorem ramWrite (n addr : Nat) (v : Byte) : Statement (.ramWrite n addr v) := fun _ _ => rfl
theorem romConstruct (base : Int) (bytes : List Byte) : Statement (.romConstruct base bytes) := fun _ _ => rfl
theorem romRead (n addr : Nat) : Statement (.romRead n addr) := fun _ _ => rfl
theorem romWrite (n addr : Nat) (v : Byte) : Statement (.romWrite n addr v) := fun _ _ => rfl

theorem ppiRd0 : Statement .ppiRd0 := fun _ _ => rfl

theorem ppiWr0 (v : Byte) : Statement (.ppiWr0 v) := by
  intro ctx _
  simp [encode, decode_ppw, decodePpw]

theorem ppiRd1 : Statement .ppiRd1 := fun _ _ => rfl

theorem ppiWr1 (v : Byte) : Statement (.ppiWr1 v) := by
  intro ctx _
  simp [encode, decode_ppw, decodePpw]

theorem ppiRd2 : Statement .ppiRd2 := fun _ _ => rfl

theorem ppiWr2 (v : Byte) : Statement (.ppiWr2 v) := by
  intro ctx _
  simp [encode, decode_ppw, decodePpw]

theorem ppiRd3 : Statement .ppiRd3 := fun _ _ => rfl

theorem ppiWr3 (v : Byte) : Statement (.ppiWr3 v) := by
  intro ctx _
  simp [encode, decode_ppw, decodePpw]

theorem ppiBadOffset (acc : Access) : Statement (.ppiBadOffset acc) := by
  intro ctx h
  simp only [Instr.wf, Bool.not_eq_true'] at h
  simp [encode, decode, decodePpiDirect, h]

end RoundTrip

end Sys2Proof.Laws
end

