-- ==== Sys2Proof/Tests/Slice0.lean ====
section
/-! SUPPORT. The model's own tests. Expected values are those of spec/95_test_vectors.md (the vector is named in the comment)
or are worked out by hand from the rule named. At the end, one witness for the hypotheses of every statement of
Certificates/Slice0/Obligations.lean that has hypotheses. -/

open Sys2Proof Sys2Proof.Machine

namespace Sys2Proof.Tests

/-! ## Helpers -/

/-- The answer is a next state of which `p` holds. -/
def check (o : Answer) (p : State → Bool) : Bool :=
  match o with
  | .next t => p t
  | .fault _ => false
  | .refused _ => false

/-- The state of a next-state answer, or the state after reset. -/
def after (o : Answer) : State :=
  match o with
  | .next t => t
  | .fault _ => State.reset
  | .refused _ => State.reset

/-- The machine after reset with channel 0 as given. -/
def withCh0 (x : Channel) : State := State.reset.setChannel .ch0 x

/-- A channel with a control word, a counter and a gate level, everything else 0. -/
def chan (cw : Byte) (ctr : Word16) (gate run : Bool) : Channel :=
  { Channel.zero with controlWord := cw, counter := ctr, gate := gate, running := run }

/-- The machine under the policy `refuse`. -/
def refusing : State := State.init { Config.exampleParams with policy := .refuse } exampleBoot

/-- The machine before anything is constructed. -/
def blank : State := State.blank Config.exampleParams

/-- The machine after reset: RAM at [0,0x4000), a ROM of four bytes at 0x4000, the PIT at 0x9000, the PeripheralInterface at
0xA000, in the shape of the common map of 95_test_vectors.md. -/
def mapped : State := State.reset

/-- The machine after reset with its clock stopped. -/
def stopped : State := { State.reset with clock := { State.reset.clock with running := false } }

/-- The machine after reset, running, with two TICK listeners, one DOUBLE and one QUAD listener, at tick 7. -/
def ticking : State := { State.reset with clock := { State.reset.clock with
  running := true
  totalTicks := 7
  phaseCounter := 3
  tickListeners := [.pitTick, .named 1]
  doubleListeners := [.named 2]
  quadListeners := [.named 3] } }

/-- A decoder's view: channel 0 in mode AM 0, channel 1 in AM 1, channel 2 in AM 3. -/
def view : DecodeCtx := { am0 := .latch, am1 := .lsb, am2 := .lsbMsb, pitBase := 0x9000, ppiBase := 0xA000 }

/-- The same with channel 2 in AM 2. -/
def view2 : DecodeCtx := { view with am2 := .msb }

/-! ## WellFormed: each check refuses an ill-formed term, and admits a well-formed one -/

theorem test_wf_data_writes : (Instr.pitWrDataAm0 .ch1 0).wf view = false ∧ (Instr.pitWrDataLsb .ch0 0).wf view = false ∧
    (Instr.pitWrDataMsb .ch0 0).wf view = false ∧ (Instr.pitWrDataLsbMsb .ch0 0).wf view = false ∧
    (Instr.pitWrDataAm0 .ch0 0).wf view = true ∧ (Instr.pitWrDataLsbMsb .ch2 0).wf view = true := by decide

theorem test_wf_data_reads : (Instr.pitRdLatched .ch1).wf view = false ∧ (Instr.pitRdLsb .ch0).wf view = false ∧
    (Instr.pitRdMsb .ch0).wf view = false ∧ (Instr.pitRdLsbMsb .ch0).wf view = false ∧
    (Instr.pitRdLsb .ch1).wf view = true ∧ (Instr.pitRdMsb .ch2).wf view2 = true := by decide

theorem test_wf_bad_offsets : (Instr.pitBadOffset (.read 0x9000)).wf view = false ∧
    (Instr.pitBadOffset (.write 0x9003 0)).wf view = false ∧ (Instr.pitBadOffset (.read 0x8FFF)).wf view = true ∧
    (Instr.ppiBadOffset (.read 0xA003)).wf view = false ∧ (Instr.ppiBadOffset (.read 0xA004)).wf view = true := by decide

theorem test_wf_pitTick : Instr.pitTick.wf view = false ∧ Instr.clkTick.wf view = true := by decide

theorem test_wf_params : Config.exampleParams.wf = true ∧ ({ Config.exampleParams with timerBit := 4 } : Params).wf = false := by
  decide

/-! ## Decoding: words written out from 30_encoding.md -/

/-- Mode words, `1 11 ss aa mmm b` (R81, R84, R88). -/
theorem test_decode_modeWords : decode view (.ptw 0b11111100111) = .ok (.pitCwSc3 2 3 1) ∧
    decode view (.ptw 0b11110001111) = .ok (.pitCwLatch .ch2 7 1) ∧
    decode view (.ptw 0b11101010000) = .ok (.pitCwSetLsb .ch1 0 0) ∧
    decode view (.ptw 0b11110100001) = .ok (.pitCwSetMsb .ch2 0 1) ∧
    decode view (.ptw 0b11100110100) = .ok (.pitCwSetLsbMsb .ch0 2 0) := ⟨rfl, rfl, rfl, rfl, rfl⟩

/-- Data writes, `1 cc dddddddd`, by the stored access mode (R87, R88). -/
theorem test_decode_dataWrites : decode view (.ptw 0b10000000101) = .ok (.pitWrDataAm0 .ch0 0x05) ∧
    decode view (.ptw 0b10110101111) = .ok (.pitWrDataLsb .ch1 0xAF) ∧
    decode view2 (.ptw 0b11010110111) = .ok (.pitWrDataMsb .ch2 0xB7) ∧
    decode view (.ptw 0b11000110100) = .ok (.pitWrDataLsbMsb .ch2 0x34) := ⟨rfl, rfl, rfl, rfl⟩

/-- Data reads, `0 cc xxxxxxxx`, and the read of offset 3, the data bits ignored (R84, R88). -/
theorem test_decode_dataReads : decode view (.ptw 0b00011111111) = .ok (.pitRdLatched .ch0) ∧
    decode view (.ptw 0b00100000000) = .ok (.pitRdLsb .ch1) ∧
    decode view2 (.ptw 0b01000000000) = .ok (.pitRdMsb .ch2) ∧
    decode view (.ptw 0b01000000001) = .ok (.pitRdLsbMsb .ch2) ∧
    decode view (.ptw 0b01110101010) = .ok .pitRdCw := ⟨rfl, rfl, rfl, rfl, rfl⟩

/-- PeripheralInterface transactions (R94). -/
theorem test_decode_ppi : decode view (.ppw 0b00000000000) = .ok .ppiRd0 ∧
    decode view (.ppw 0b10000000111) = .ok (.ppiWr0 0x07) ∧ decode view (.ppw 0b00100000000) = .ok .ppiRd1 ∧
    decode view (.ppw 0b10111000000) = .ok (.ppiWr1 0xC0) ∧ decode view (.ppw 0b01000000000) = .ok .ppiRd2 ∧
    decode view (.ppw 0b11000000000) = .ok (.ppiWr2 0) ∧ decode view (.ppw 0b01111111111) = .ok .ppiRd3 ∧
    decode view (.ppw 0b11110011001) = .ok (.ppiWr3 0x99) := ⟨rfl, rfl, rfl, rfl, rfl, rfl, rfl, rfl⟩

/-- Direct calls: the four ports, and W13, W14, Q12. -/
theorem test_decode_direct : decode view (.pitDirect (.write 0x9003 0xC0)) = .ok (.pitCwSc3 0 0 0) ∧
    decode view (.pitDirect (.write 0x9004 0)) = .ok (.pitBadOffset (.write 0x9004 0)) ∧
    decode view (.pitDirect (.read 0x8FFF)) = .ok (.pitBadOffset (.read 0x8FFF)) ∧
    decode view (.ppiDirect (.read 0xA002)) = .ok .ppiRd2 ∧
    decode view (.ppiDirect (.read 0xA004)) = .ok (.ppiBadOffset (.read 0xA004)) := ⟨rfl, rfl, rfl, rfl, rfl⟩

/-- Operations presented by name, and what is refused by name (R80, R95). -/
theorem test_decode_named : decode view (.named .clkStart) = .ok .clkStart ∧
    decode view (.named (.busWrite 0x10 0xAB)) = .ok (.busWrite 0x10 0xAB) ∧
    decode view (.named .pitTick) = .error .listenerOnly ∧
    decode view (.named .pitRdCw) = .error (.notNamed .pitRdCw) ∧
    decode view (.ptw 0b100000000000) = .error (.notPackable 0x800) := ⟨rfl, rfl, rfl, rfl, rfl⟩

/-- Table words on a machine after reset. -/
theorem test_table_words : decodeTableWord 16 0x7C0 = some (.pitCwSc3 0 0 0) ∧
    decodeTableWord 16 0x700 = some (.pitCwLatch .ch0 0 0) ∧ decodeTableWord 16 0x710 = some (.pitCwSetLsb .ch0 0 0) ∧
    decodeTableWord 16 0x720 = some (.pitCwSetMsb .ch0 0 0) ∧ decodeTableWord 16 0x730 = some (.pitCwSetLsbMsb .ch0 0 0) ∧
    decodeTableWord 16 0x405 = some (.pitWrDataAm0 .ch0 5) ∧ decodeTableWord 16 0x000 = some (.pitRdLatched .ch0) ∧
    decodeTableWord 16 0x300 = some .pitRdCw ∧ decodeTableWord 16 0x800 = none := ⟨rfl, rfl, rfl, rfl, rfl, rfl, rfl, rfl, rfl⟩

/-! ## The step -/

/-- A table word is what the next step performs: the mode word 0x34 (W11). -/
theorem test_step_runs_word :
    check (step (State.reset.withFetchWord 16 0x734))
      (fun t => (t.channel .ch0).controlWord == 0x34 && t.result == .ok && t.pending == []) = true := by decide

/-- With nothing pending a running clock ticks, and a stopped one does not (K9, K5). -/
theorem test_step_clock_agent : check (step ticking) (fun t => t.clock.totalTicks == 8) = true ∧
    step stopped = .next stopped ∧ check (step State.reset) (fun t => t.clock.totalTicks == 1) = true :=
  ⟨by decide, rfl, by decide⟩

/-- A record in `faults` and a fatal error stop the machine (D26; R243). -/
theorem test_step_stops :
    step { State.reset with faults := [.undefined .pitOffset3Read] } = .fault (.stickyFault (.undefined .pitOffset3Read)) ∧
    step { State.reset with result := .error (.invalidTickPeriod (.rational 0)) } =
      .fault (.fatalConfiguration (.invalidTickPeriod (.rational 0))) ∧
    step (State.reset.enqueue (.named .pitTick)) = .refused (.undecodable .listenerOnly) := ⟨rfl, rfl, rfl⟩

/-! ## Mode words (W1 to W15) -/

/-- W1: the latch command at counter 0x1234. -/
theorem test_latch_command :
    check (exec (.pitCwLatch .ch0 0 0) (withCh0 { chan 0x30 0x1234 true true with latchPhase := true }))
      (fun t => t.channel .ch0 ==
        { chan 0x00 0x1234 true true with countLatch := 0x1234 }) = true := by decide

/-- W9: no latch is taken under `refuse` when M = 1. -/
theorem test_latch_refused :
    check (exec (.pitCwLatch .ch0 1 0) refusing)
      (fun t => t.result == .refused (.modeWord 0x02) && t.faults == [.refused (.modeWord 0x02)] && t.pit == Pit.zero) = true := by
  decide

/-- W3. -/
theorem test_setLsb : check (exec (.pitCwSetLsb .ch1 0 0) State.reset)
    (fun t => t.pit == { Pit.zero with ch1 := { Channel.zero with controlWord := 0x50 } }) = true := by decide

/-- W4. -/
theorem test_setMsb : check (exec (.pitCwSetMsb .ch2 0 1) State.reset)
    (fun t => t.pit == { Pit.zero with ch2 := { Channel.zero with controlWord := 0xA1 } }) = true := by decide

/-- W5: the phases, the counter and `running` survive the control word. -/
theorem test_setLsbMsb : check (exec (.pitCwSetLsbMsb .ch0 0 0)
      (withCh0 { chan 0x00 0x0042 false true with writePhase := true, readPhase := true }))
    (fun t => t.channel .ch0 == { chan 0x30 0x0042 false true with writePhase := true, readPhase := true }) = true := by decide

/-- W8. -/
theorem test_setLsbMsb_refused : check (exec (.pitCwSetLsbMsb .ch0 2 0) refusing)
    (fun t => t.result == .refused (.modeWord 0x34) && (t.channel .ch0).controlWord == 0x00) = true := by decide

/-- W10: SC = 3 is looked at before the policy. -/
theorem test_sc3 : check (exec (.pitCwSc3 0 1 0) refusing)
    (fun t => t.result == .error (.invalidModeWord 0xC2) && t.faults == [] && t.pit == Pit.zero) = true := by decide

/-- W12. -/
theorem test_read_offset3 : check (exec .pitRdCw State.reset)
    (fun t => t.faults == [.undefined .pitOffset3Read] && t.result == .undefined .pitOffset3Read) = true := by decide

/-- W13, W14. -/
theorem test_pitBadOffset : exec (.pitBadOffset (.write 0x9004 0)) State.reset =
      .next (State.reset.returning (.error (.addressRange 0x9004))) ∧
    exec (.pitBadOffset (.read 0x8FFF)) State.reset = .next (State.reset.returning (.error (.addressRange 0x8FFF))) :=
  ⟨rfl, rfl⟩

/-- Construction subscribes the handler (R150), and a PIT is constructed once (R270). -/
theorem test_pitConstruct : check (exec .pitConstruct blank)
      (fun t => t.pit == Pit.zero && t.pitExists && t.clock.tickListeners == [.pitTick]) = true ∧
    exec .pitConstruct State.reset = .refused .pitAlreadyConstructed := ⟨by decide, rfl⟩

/-! ## Data writes (D1 to D11) -/

/-- D1. -/
theorem test_write_am0 : check (exec (.pitWrDataAm0 .ch0 0x05) State.reset)
    (fun t => t.result == .error (.invalidAccessMode .ch0 .latch) && t.pit == Pit.zero) = true := by decide

/-- D2, D3: arming copies the gate. -/
theorem test_write_lsb : check (exec (.pitWrDataLsb .ch0 0x56) (withCh0 (chan 0x10 0x1234 true false)))
      (fun t => t.channel .ch0 == chan 0x10 0x1256 true true) = true ∧
    check (exec (.pitWrDataLsb .ch0 0x56) (withCh0 (chan 0x10 0x1234 false true)))
      (fun t => t.channel .ch0 == chan 0x10 0x1256 false false) = true := by decide

/-- D5, D8: the clamp, and no arming in a nonzero mode. -/
theorem test_write_lsb_bcd_and_mode2 : check (exec (.pitWrDataLsb .ch0 0xAF) (withCh0 (chan 0x11 0 false false)))
      (fun t => (t.channel .ch0).counter == 0x0099) = true ∧
    check (exec (.pitWrDataLsb .ch0 0x09) (withCh0 (chan 0x14 0 true false)))
      (fun t => t.channel .ch0 == chan 0x14 0x0009 true false) = true := by decide

/-- D4. -/
theorem test_write_msb : check (exec (.pitWrDataMsb .ch0 0xB7) (withCh0 (chan 0x21 0x1234 false false)))
    (fun t => (t.channel .ch0).counter == 0x9734) = true := by decide

/-- D6, the first write: no arming. -/
theorem test_write_lsbMsb_first : check (exec (.pitWrDataLsbMsb .ch0 0x34) (withCh0 (chan 0x30 0 true false)))
    (fun t => t.channel .ch0 == { chan 0x30 0x0034 true false with writePhase := true }) = true := by decide

/-- D7: the second write arms. -/
theorem test_write_lsbMsb_second :
    check (exec (.pitWrDataLsbMsb .ch0 0x07) (withCh0 { chan 0x30 0x00FF true false with writePhase := true }))
      (fun t => t.channel .ch0 == chan 0x30 0x07FF true true) = true := by decide

/-! ## Data reads (R1 to R8 of 95_test_vectors.md) -/

/-- Vector R2, its first two reads. -/
theorem test_read_latched :
    check (exec (.pitRdLatched .ch0) (withCh0 { Channel.zero with countLatch := 0x1234 }))
      (fun t => t.result == .byte 0x34 && (t.channel .ch0).latchPhase) = true ∧
    check (exec (.pitRdLatched .ch0) (withCh0 { Channel.zero with countLatch := 0x1234, latchPhase := true }))
      (fun t => t.result == .byte 0x12 && !(t.channel .ch0).latchPhase) = true := by decide

/-- Vector R4. -/
theorem test_read_lsb : exec (.pitRdLsb .ch0) (withCh0 (chan 0x10 0x1234 false false)) =
    .next ((withCh0 (chan 0x10 0x1234 false false)).returning (.byte 0x34)) := rfl

/-- Vector R5. -/
theorem test_read_msb : exec (.pitRdMsb .ch0) (withCh0 (chan 0x20 0x1234 false false)) =
    .next ((withCh0 (chan 0x20 0x1234 false false)).returning (.byte 0x12)) := rfl

/-- Vector R6. -/
theorem test_read_lsbMsb :
    check (exec (.pitRdLsbMsb .ch0) (withCh0 { chan 0x30 0x1234 false false with readPhase := true }))
      (fun t => t.result == .byte 0x12 && t.channel .ch0 == chan 0x30 0x1234 false false) = true := by decide

/-! ## Counting and the gate (section 2.6, T1, G1 to G7) -/

/-- T1, with the output cleared. -/
theorem test_pitTick : check (exec .pitTick { State.reset with pit := {
      ch0 := { chan 0x00 5 false true with output := true }
      ch1 := chan 0x00 9 false false
      ch2 := chan 0x00 0 false true } })
    (fun t => t.pit == { ch0 := chan 0x00 4 false true, ch1 := chan 0x00 9 false false, ch2 := chan 0x00 0 false true }) = true := by
  decide

/-- The BCD table of section 2.6 and its nibbles above 9. -/
theorem test_bcdDec : [0x0001, 0x0009, 0x0010, 0x0100, 0x1000, 0x1001, 0x0101, 0x0990, 0x2500, 0x8000, 0x9999].map bcdDec =
      [0x0000, 0x0008, 0x0009, 0x0099, 0x0999, 0x1000, 0x0100, 0x0989, 0x2499, 0x7999, 0x9998] ∧
    [0x00AB, 0x00A0, 0xF000, 0xFFFF].map bcdDec = [0x00AA, 0x0099, 0xE999, 0xFFFE] := by decide

/-- The clamp's examples (R170). -/
theorem test_clampBcd : [0xAF, 0x3C, 0xF0, 0x42].map clampBcd = [0x99, 0x39, 0x90, 0x42] := by decide

/-- G1, G5, G6. -/
theorem test_setGate : check (exec (.pitSetGate .ch0 true) (withCh0 (chan 0x30 3 false false)))
      (fun t => t.channel .ch0 == chan 0x30 3 true true) = true ∧
    check (exec (.pitSetGate .ch0 true) (withCh0 (chan 0x36 3 false false)))
      (fun t => t.channel .ch0 == chan 0x36 3 true false) = true ∧
    check (exec (.pitSetGate .ch0 false) (withCh0 (chan 0x36 3 true true)))
      (fun t => t.channel .ch0 == chan 0x36 3 false true) = true := by decide

/-! ## The clock (K1 to K13) -/

/-- K2, K3: a period that is not positive, and an irrational one. -/
theorem test_clkConstruct_bad : ∀ period ∈ [Period.rational 0, .rational (-3), .irrational false 0],
    check (exec (.clkConstruct period) blank) (fun t => t == blank.returning (.error (.invalidTickPeriod period))) = true := by
  decide

/-- K1, K4; and one clock is constructed once (R101, R270). -/
theorem test_clkConstruct : (∀ period ∈ [Period.rational ⟨1, 1000000000, by decide, by decide⟩, .irrational true 0],
      check (exec (.clkConstruct period) blank)
        (fun t => t.clock == Clock.constructed period && t.clockExists && !t.clock.running) = true) ∧
    exec (.clkConstruct (.rational 1)) ticking = .refused .clockAlreadyConstructed := ⟨by decide, rfl⟩

/-- The boot sequence of R273, performed from nothing, up to the registration of the ROM. -/
theorem test_bootOps : (bootOps exampleBoot).take 5 = [.clkConstruct (.rational 1), .ramConstruct 0 0x4000,
    .romConstruct 0x4000 [0xEA, 0xF1, 0xF8, 0xFF], .pitConstruct, .busRegister (.ram 0)] ∧
    (bootOps exampleBoot).drop 5 = [.busRegister (.rom 0), .busRegister .pit, .busRegister .ppi, .clkStart] := ⟨rfl, rfl⟩

/-- K11: the same listener again. -/
theorem test_clkSubscribe : check (exec (.clkSubscribe .tick (.admitted (.named 1))) ticking)
    (fun t => t.clock.tickListeners == [.pitTick, .named 1, .named 1] && t.clock.doubleListeners == [.named 2]) = true := by decide

/-- A listener that calls the clock is refused (R110, R248). -/
theorem test_clkSubscribe_reentrant : check (exec (.clkSubscribe .quad (.reentrant 9)) State.reset)
    (fun t => t.faults == [.refused (.reentrantListener .quad 9)] && t.clock.quadListeners == []) = true := by decide

/-- K6, K8. -/
theorem test_clkStart_clkStop : check (exec .clkStart stopped) (fun t => t.clock.running) = true ∧
    check (exec .clkStop ticking) (fun t => !t.clock.running && t.clock.totalTicks == 7) = true := by decide

/-- K9 and K13: TICK listeners see 7, DOUBLE and then QUAD see 8. -/
theorem test_clkTick : check (exec .clkTick ticking)
    (fun t => t.clock.totalTicks == 8 && t.clock.phaseCounter == 0 && t.trace ==
      [{ kind := .tick, listener := .pitTick, totalTicks := 7 }, { kind := .tick, listener := .named 1, totalTicks := 7 },
       { kind := .double, listener := .named 2, totalTicks := 8 }, { kind := .quad, listener := .named 3, totalTicks := 8 }]) =
    true := by decide

/-- K5: nothing happens while stopped. -/
theorem test_clkTick_stopped : exec .clkTick stopped = .next (stopped.returning .notEnabled) := rfl

/-- K12. -/
theorem test_clkTotalTicks : exec .clkTotalTicks ticking = .next (ticking.returning (.count 7)) := rfl

/-! ## The bus and the memory devices (B1 to B17, P1, P2) -/

/-- B1: ranges that touch both register. -/
theorem test_register : check (exec (.busRegister (.rom 0)) { mapped with bus := [{ device := .ram 0, base := 0, size := 0x4000 }] })
    (fun t => t.bus.length == 2 && t.result == .ok) = true := by decide

/-- B5, and P8's shape: a device registered again overlaps itself, and nothing is added. -/
theorem test_register_overlap : check (exec (.busRegister (.ram 0)) mapped)
    (fun t => t.result == .error (.overlap { device := .ram 0, base := 0, size := 0x4000 }
      { device := .ram 0, base := 0, size := 0x4000 }) && t.bus == mapped.bus) = true := by decide

/-- B7: a bad configuration inside a registered range is refused, not an overlap. -/
theorem test_register_refused :
    check (exec (.busRegister (.ram 1)) { mapped with rams := mapped.rams ++ [{ base := 0x3000, size := 0, mem := [] }] })
      (fun t => t.faults == [.refused (.deviceConfiguration { device := .ram 1, base := 0x3000, size := 0 })]) = true := by decide

/-- P2 and the end of the ROM's range: B9, B10. -/
theorem test_busRead : check (exec (.busRead 0x4003) mapped) (fun t => t.result == .byte 0xFF) = true ∧
    check (exec (.busRead 0x4004) mapped) (fun t => t.result == .byte 0x00) = true := by decide

/-- B17: InvalidModeError comes back from the bus; B16: past the PIT's four ports the write is an open-bus one. -/
theorem test_busWrite : check (exec (.busWrite 0x9000 0x05) mapped)
      (fun t => t.result == .error (.invalidAccessMode .ch0 .latch)) = true ∧
    exec (.busWrite 0x9004 0x00) mapped = .next (mapped.returning .ok) := ⟨by decide, rfl⟩

/-- B12: a later write replaces the earlier one. -/
theorem test_ramWrite : check (exec (.ramWrite 0 0x20 0x02) (after (exec (.ramWrite 0 0x20 0x01) mapped)))
    (fun t => t.rams == [{ base := 0, size := 0x4000, mem := [(0x20, 0x02)] }]) = true := by decide

/-- P1 at the last byte of the range, and B14 after it. -/
theorem test_ramRead : check (exec (.ramRead 0 0x3FFF) (after (exec (.ramWrite 0 0x3FFF 0xAB) mapped)))
      (fun t => t.result == .byte 0xAB) = true ∧
    exec (.ramRead 0 0x4000) mapped = .next (mapped.returning (.error (.addressRange 0x4000))) := ⟨by decide, rfl⟩

/-- B13: a byte never written is RAM_INIT, a free value. -/
theorem test_ramRead_unwritten : exec (.ramRead 0 0x30) mapped = .next (mapped.returning (.byte (Config.ramInit 0 0x30))) := rfl

/-- A constructed RAM is not registered (R131). -/
theorem test_ramConstruct : check (exec (.ramConstruct 0x6000 0x10) mapped)
    (fun t => t.rams.length == 2 && t.bus == mapped.bus) = true := by decide

/-- P7: offset 0 of the ROM. -/
theorem test_romRead : exec (.romRead 0 0x4000) mapped = .next (mapped.returning (.byte 0xEA)) := rfl

/-- P2 and B15. -/
theorem test_romWrite : exec (.romWrite 0 0x4000 0x55) mapped = .next (mapped.returning .ok) ∧
    exec (.romWrite 0 0x3FFF 0) mapped = .next (mapped.returning (.error (.addressRange 0x3FFF))) := ⟨rfl, rfl⟩

/-- A constructed ROM holds its bytes (R134). -/
theorem test_romConstruct : check (exec (.romConstruct 0x6000 [1, 2]) mapped)
    (fun t => t.roms.length == 2 && t.roms[1]? == some { base := 0x6000, bytes := [1, 2] }) = true := by decide

/-- A device that was never constructed is refused by name (notes/assumptions/18.md). -/
theorem test_noSuchDevice : exec (.ramRead 5 0) mapped = .refused (.noSuchDevice (.ram 5)) ∧
    exec (.busRegister (.rom 5)) mapped = .refused (.noSuchDevice (.rom 5)) := ⟨rfl, rfl⟩

/-! ## The PeripheralInterface (Q1 to Q12) -/

/-- Q1 and Q2: the switches, or one answer of the keyboard. -/
theorem test_ppiRd0 : check (exec .ppiRd0 { State.reset with ppi := { port1Latch := 0x80 } })
      (fun t => t.result == .byte 0x4D && t.draws == 0) = true ∧
    exec .ppiRd0 State.reset = .next ({ State.reset with draws := 1 }.returning (.byte (Config.keyboardGet 0))) :=
  ⟨by decide, rfl⟩

/-- Q4 and Q5. -/
theorem test_ppiWr1 : check (exec (.ppiWr1 0xC0) State.reset) (fun t => t.ppi.port1Latch == 0xC0 && t.keyboard.clockEnable) = true ∧
    check (exec (.ppiWr1 0x3F) State.reset) (fun t => t.ppi.port1Latch == 0x3F && !t.keyboard.clockEnable) = true := by decide

/-- Q7: cassette at bit 4 and RAM-check at bit 7, OR'd with PPI_SW2 = 0x03. -/
theorem test_port2_bits : (0x03 : Byte) ||| bitAt true 4 ||| bitAt false 5 ||| bitAt false 6 ||| bitAt true 7 = 0x93 := by decide

/-- One draw is taken by a port-2 read. -/
theorem test_ppiRd2 : exec .ppiRd2 State.reset =
    .next ({ State.reset with draws := 1 }.returning (.byte (port2Byte State.reset))) := rfl

/-- Q8. -/
theorem test_ppiRd3 : exec .ppiRd3 State.reset = .next (State.reset.returning (.byte 0x99)) := rfl

/-- Q9 and Q10. -/
theorem test_ppiWr3 : exec (.ppiWr3 0x99) State.reset = .next (State.reset.returning .ok) ∧
    exec (.ppiWr3 0x98) State.reset = .next (State.reset.returning (.error (.unsupportedConfiguration 0x98))) := ⟨rfl, rfl⟩

/-- Q11. -/
theorem test_ppi_undefined : check (exec (.ppiWr0 0) State.reset) (fun t => t.faults == [.undefined .ppiPort0Write]) = true ∧
    check (exec .ppiRd1 State.reset) (fun t => t.faults == [.undefined .ppiPort1Read]) = true ∧
    check (exec (.ppiWr2 0) State.reset) (fun t => t.faults == [.undefined .ppiPort2Write]) = true := by decide

/-- Q12. -/
theorem test_ppiBadOffset : exec (.ppiBadOffset (.read 0xA004)) State.reset =
    .next (State.reset.returning (.error (.addressRange 0xA004))) := rfl

/-! ## Witnesses: a concrete state and operands that meet the hypotheses of each statement -/

/-- DecodeOfEncodeIsIdentity: an operation of each kind that an agent can issue. -/
theorem witness_DecodeOfEncodeIsIdentity : (Instr.pitCwSc3 3 7 1).wf view = true ∧ (Instr.pitWrDataLsb .ch1 0xFF).wf view = true ∧
    (Instr.pitRdMsb .ch2).wf view2 = true ∧ (Instr.pitBadOffset (.read 0x9004)).wf view = true ∧
    (Instr.ppiBadOffset (.write 0x9FFF 0)).wf view = true ∧ (Instr.busWrite 0x9003 0x30).wf view = true := by decide

/-- ControlWordRowsOfTheTable: a word of each row. -/
theorem witness_ControlWordRowsOfTheTable : decode view (.ptw (0x7C0 : PortWord).toNat) = .ok (.pitCwSc3 0 0 0) ∧
    decode view (.ptw (0x78F : PortWord).toNat) = .ok (.pitCwLatch .ch2 7 1) ∧
    decode view (.ptw (0x710 : PortWord).toNat) = .ok (.pitCwSetLsb .ch0 0 0) ∧
    decode view (.ptw (0x7AF : PortWord).toNat) = .ok (.pitCwSetMsb .ch2 7 1) ∧
    decode view (.ptw (0x7BF : PortWord).toNat) = .ok (.pitCwSetLsbMsb .ch2 7 1) ∧
    decode view (.ptw (0x3FF : PortWord).toNat) = .ok .pitRdCw := ⟨rfl, rfl, rfl, rfl, rfl, rfl⟩

/-- StoredAccessModeSelectsTheRow: a channel at each value of the stored AM. -/
theorem witness_StoredAccessModeSelectsTheRow : [0x00, 0x10, 0x20, 0x30].map (fun cw =>
    ((withCh0 (chan cw 0 false false)).channel .ch0).controlWord.extractLsb' 4 2) = [0, 1, 2, 3] := by decide

/-- StepPerformsDecodedRequest: a pending word after reset, and one after an error that is not fatal. -/
theorem witness_StepPerformsDecodedRequest :
    let s := (State.reset.returning (.error (.addressRange 7))).enqueue (.ptw 0x700)
    s.faults = [] ∧ (∀ e, s.result = .error e → e.fatal = false) ∧ s.pending = [.ptw 0x700] ∧
      decode s.decodeCtx (.ptw 0x700) = .ok (.pitCwLatch .ch0 0 0) := by
  refine ⟨rfl, ?_, rfl, rfl⟩
  intro e h
  cases h
  rfl

/-- StepElsewhere: a state for each of its clauses. -/
theorem witness_StepElsewhere :
    ({ State.reset with faults := [.undefined .ppiPort1Read] } : State).faults = [.undefined .ppiPort1Read] ∧
    (State.reset.returning (.error (.invalidTickPeriod (.rational 0)))).result = .error (.invalidTickPeriod (.rational 0)) ∧
    (HwError.invalidTickPeriod (.rational 0)).code = 5 ∧
    (HwError.overlap { device := .pit, base := 0, size := 4 } { device := .ppi, base := 0, size := 4 }).code = 3 ∧
    (ticking.faults = [] ∧ ticking.result = .idle ∧ ticking.pending = [] ∧ ticking.clock.running = true) ∧
    (stopped.pending = [] ∧ stopped.clock.running = false) ∧
    decode State.reset.decodeCtx (.ptw 2048) = .error (.notPackable 2048) := ⟨rfl, rfl, rfl, rfl, ⟨rfl, rfl, rfl, rfl⟩, ⟨rfl, rfl⟩, rfl⟩

/-- ErrorsWriteNothing: an operation that returns an error. -/
theorem witness_ErrorsWriteNothing : exec (.pitWrDataAm0 .ch0 5) State.reset =
      .next (State.reset.returning (.error (.invalidAccessMode .ch0 .latch))) ∧
    (State.reset.returning (.error (.invalidAccessMode .ch0 .latch))).result = .error (.invalidAccessMode .ch0 .latch) :=
  ⟨rfl, rfl⟩

/-- FaultRecordsAreKept: an operation that returns Undefined, one that returns Refused, with a record already there. -/
theorem witness_FaultRecordsAreKept :
    let s := { refusing with faults := [.undefined .ppiPort0Write] }
    check (exec .pitRdCw s) (fun t => t.result == .undefined .pitOffset3Read && t.faults.length == 2) = true ∧
    check (exec (.pitCwSetLsb .ch0 1 0) s) (fun t => t.result == .refused (.modeWord 0x12) && t.faults.length == 2) = true := by
  decide

theorem reset_period : PeriodPositive State.reset := fun _ h => (periodPositive_iff h).1 (by decide)

theorem mapped_matches : BusMatchesDevices mapped := by
  unfold BusMatchesDevices
  decide

theorem mapped_disjoint : RangesDisjoint mapped := by
  refine ⟨by decide, ?_⟩
  simp only [mapped, State.reset, State.init, exampleBoot, mapBus, Config.exampleParams, List.pairwise_cons, List.mem_cons, List.not_mem_nil, BusEntry.Disjoint, inRange, Bool.and_eq_true,
    decide_eq_true_eq, forall_eq_or_imp, or_false]
  refine ⟨⟨?_, ?_, ?_⟩, ⟨?_, ?_⟩, ?_, ?_⟩ <;> simp <;> omega

/-- EveryOperationCompletes: the registered devices exist, and so do the devices named; before the boot, no clock and no PIT. -/
theorem witness_EveryOperationCompletes : BusMatchesDevices mapped ∧ (mapped.deviceEntry (.ram 0)).isSome = true ∧
    0 < mapped.rams.length ∧ 0 < mapped.roms.length ∧
    BusMatchesDevices blank ∧ blank.clockExists = false ∧ blank.pitExists = false :=
  ⟨mapped_matches, rfl, by decide, by decide, fun _ h => absurd h List.not_mem_nil, rfl, rfl⟩

/-- OpenBusIsTolerated: the first address after the ROM, the last before the PIT, the first after it. -/
theorem witness_OpenBusIsTolerated : ∀ addr ∈ [0x4004, 0x8FFF, 0x9004],
    ∀ e ∈ mapped.bus, ¬ (e.base ≤ ((addr : Nat) : Int) ∧ (addr : Int) < e.base + e.size) := by decide

/-- LookupFindsTheOwner: the last address of the RAM and the first of the ROM, and an address no device owns. -/
theorem witness_LookupFindsTheOwner : RangesDisjoint mapped ∧
    ({ device := .ram 0, base := 0, size := 0x4000 } ∈ mapped.bus ∧ (0 : Int) ≤ 0x3FFF ∧ (0x3FFF : Int) < 0 + 0x4000) ∧
    ({ device := .rom 0, base := 0x4000, size := 4 } ∈ mapped.bus ∧ (0x4000 : Int) ≤ 0x4000 ∧ (0x4000 : Int) < 0x4000 + 4) ∧
    (∀ e ∈ mapped.bus, ¬ (e.base ≤ (0x4004 : Int) ∧ (0x4004 : Int) < e.base + e.size)) :=
  ⟨mapped_disjoint, by decide, by decide, by decide⟩

/-- RamReadsBackThroughTheBus: the RAM of the map, at both ends of its range. -/
theorem witness_RamReadsBackThroughTheBus : RangesDisjoint mapped ∧ BusMatchesDevices mapped ∧
    { device := .ram 0, base := 0, size := 0x4000 } ∈ mapped.bus ∧
    (∀ addr ∈ [0, 0x3FFF], (0 : Int) ≤ (addr : Nat) ∧ ((addr : Nat) : Int) < 0 + 0x4000) :=
  ⟨mapped_disjoint, mapped_matches, by decide, by decide⟩

/-- RamWriteStoresOneByte and RamReadReturnsTheByte: in range at the last byte, out of range at the next address. -/
theorem witness_RamWriteStoresOneByte : mapped.rams[0]? = some { base := 0, size := 0x4000, mem := [] } ∧
    ((0 : Int) ≤ (0x3FFF : Nat) ∧ ((0x3FFF : Nat) : Int) < 0 + 0x4000) ∧
    ¬ ((0 : Int) ≤ (0x4000 : Nat) ∧ ((0x4000 : Nat) : Int) < 0 + 0x4000) := ⟨rfl, by decide, by decide⟩

theorem witness_RamReadReturnsTheByte : mapped.rams[0]? = some { base := 0, size := 0x4000, mem := [] } ∧
    ((0 : Int) ≤ (0 : Nat) ∧ ((0 : Nat) : Int) < 0 + 0x4000 ∧ ((0 : Nat) : Int) = (0 : Nat) - 0) ∧
    ¬ ((0 : Int) ≤ (0x4000 : Nat) ∧ ((0x4000 : Nat) : Int) < 0 + 0x4000) := ⟨rfl, by decide, by decide⟩

/-- RomReadsItsBytesAndIgnoresWrites: the last byte, the address before the ROM and the one after it. -/
theorem witness_RomReadsItsBytesAndIgnoresWrites : mapped.roms[0]? = some { base := 0x4000, bytes := [0xEA, 0xF1, 0xF8, 0xFF] } ∧
    (((3 : Nat) : Int) = (0x4003 : Nat) - 0x4000 ∧ ([0xEA, 0xF1, 0xF8, 0xFF] : List Byte)[3]? = some 0xFF) ∧
    (∀ addr ∈ [0x3FFF, 0x4004], ¬ ((0x4000 : Int) ≤ (addr : Nat) ∧ ((addr : Nat) : Int) < 0x4000 + 4)) :=
  ⟨rfl, by decide, by decide⟩

/-- ConstructedUnitsAreSetOnce: an operation that answers a next state where all units are, and a positive period. -/
theorem witness_ConstructedUnitsAreSetOnce :
    check (exec (.ramWrite 0 0x3FFF 1) mapped) (fun t => t.roms == mapped.roms) = true ∧
    mapped.roms[0]?.isSome = true ∧ mapped.rams[0]?.isSome = true ∧ mapped.clockExists = true ∧ mapped.pitExists = true ∧
    (Period.rational 1).Names 1 ∧ (0 : ℝ) < 1 :=
  ⟨by decide, rfl, rfl, rfl, rfl, by simp [Period.Names], by norm_num⟩

/-- RegisteredDevicesStay: an operation that adds a device, and one that adds none. -/
theorem witness_RegisteredDevicesStay :
    check (exec (.busRegister .pit) { State.reset with bus := [] }) (fun t => t.bus.length == 1) = true ∧
    check (exec (.busRegister .pit) State.reset) (fun t => t.bus == State.reset.bus) = true := by decide

/-- A map of one RAM at [0,0x4000), with a ROM just after it and a RAM on its last byte constructed. -/
def unregistered : State := { mapped with
  bus := [{ device := .ram 0, base := 0, size := 0x4000 }]
  rams := mapped.rams ++ [{ base := 0x3FFF, size := 1, mem := [] }] }

/-- RegisterAddsOrRaisesOverlap: a range that only touches, and one that overlaps by one address (B1, B2). -/
theorem witness_RegisterAddsOrRaisesOverlap :
    (unregistered.deviceEntry (.rom 0) = some { device := .rom 0, base := 0x4000, size := 4 } ∧
      ∀ e ∈ unregistered.bus, ¬ ((0x4000 : Int) < e.base + e.size ∧ e.base < (0x4000 : Int) + 4)) ∧
    (unregistered.deviceEntry (.ram 1) = some { device := .ram 1, base := 0x3FFF, size := 1 } ∧
      ∃ e ∈ unregistered.bus, (0x3FFF : Int) < e.base + e.size ∧ e.base < (0x3FFF : Int) + 1) := by decide

/-- BadConfigurationIsRefused: a negative base, and a size of 0. -/
theorem witness_BadConfigurationIsRefused :
    let s := { mapped with rams := [{ base := -1, size := 4, mem := [] }, { base := 0, size := 0, mem := [] }] }
    (s.deviceEntry (.ram 0) = some { device := .ram 0, base := -1, size := 4 } ∧ (-1 : Int) < 0) ∧
    (s.deviceEntry (.ram 1) = some { device := .ram 1, base := 0, size := 0 } ∧ (0 : Int) < 1) := by decide

/-- BusAccessesAreInRange: an access of a device and an access of the open bus. -/
theorem witness_BusAccessesAreInRange : BusMatchesDevices mapped ∧
    check (exec (.busRead 0x4003) mapped) (fun t => t.result == .byte 0xFF) = true ∧
    check (exec (.busWrite 0x9003 0xC0) mapped) (fun t => t.result == .error (.invalidModeWord 0xC0)) = true :=
  ⟨mapped_matches, by decide, by decide⟩

/-- The four statements about every step: a state that meets the invariants, and a step of it. -/
theorem witness_InvariantsKept :
    let s := mapped.enqueue (.named (.busWrite 0x10 0xAB))
    RangesDisjoint s ∧ BusMatchesDevices s ∧ PhaseTracksTotal s ∧ PeriodPositive s ∧ MemoriesCanonical s ∧ OutputsLow s ∧
    RefuseKeepsModeZero s ∧ SelectFieldIsOwn s ∧ check (step s) (fun t => t.rams[0]?.map (·.mem) == some [(0x10, 0xAB)]) = true := by
  refine ⟨mapped_disjoint, mapped_matches, rfl, ?_, ?_, ?_, ?_, ?_, by decide⟩
  · exact reset_period
  · unfold MemoriesCanonical
    decide
  · intro c
    cases c <;> rfl
  · intro h
    cases h
  · intro c
    cases c <;> exact Or.inr rfl

/-- The example boot with further listeners, and the gate of channel 1 high. -/
def busyBoot : BootConfig :=
  { exampleBoot with listeners := [(.quad, .named 1), (.tick, .named 2)], gates := [.ch1] }

/-- ResetValuesAndInvariants and BootSequenceReachesInitialState: the example boot, and one with listeners and gates. -/
theorem witness_BootSequenceReachesInitialState : RangesDisjoint State.reset ∧ PeriodPositive State.reset ∧
    RangesDisjoint (State.init Config.exampleParams busyBoot) ∧ PeriodPositive (State.init Config.exampleParams busyBoot) ∧
    (State.init Config.exampleParams busyBoot).clock.tickListeners = [.pitTick, .named 2] :=
  ⟨mapped_disjoint, reset_period, mapped_disjoint, reset_period, rfl⟩

/-- PitConstructZeroes: before the boot. -/
theorem witness_PitConstructZeroes : blank.pitExists = false := rfl

/-- PitInvariantsKept under the policy `refuse`: the invariant holds and the step answers a next state. -/
theorem witness_PitInvariantsKept : let s := refusing.enqueue (.ptw 0x730)
    s.params.policy = .refuse ∧ RefuseKeepsModeZero s ∧ check (step s) (fun t => (t.channel .ch0).controlWord == 0x30) = true := by
  refine ⟨rfl, ?_, by decide⟩
  intro _ c
  cases c <;> decide

/-- LatchCommandSnapshots: a byte that the policy admits, and one it refuses. -/
theorem witness_LatchCommandSnapshots :
    ((0x8E : Byte).extractLsb' 6 2 = Chan.ch2.bits ∧ (0x8E : Byte).extractLsb' 4 2 = 0) ∧ State.reset.params.policy = .placeholder ∧
    ((0x80 : Byte).extractLsb' 1 3 = 0) ∧ (refusing.params.policy = .refuse ∧ (0x8E : Byte).extractLsb' 1 3 ≠ 0) := by decide

/-- ModeWordsWriteOnlyTheControlWord: a byte for each access mode, the nonzero modes under `placeholder`, mode 0 under `refuse`. -/
theorem witness_ModeWordsWriteOnlyTheControlWord :
    ((0x5F : Byte).extractLsb' 6 2 = Chan.ch1.bits ∧ (0x5F : Byte).extractLsb' 4 2 = 1) ∧
    ((0xA1 : Byte).extractLsb' 6 2 = Chan.ch2.bits ∧ (0xA1 : Byte).extractLsb' 4 2 = 2 ∧ (0xA1 : Byte).extractLsb' 1 3 = 0) ∧
    ((0x34 : Byte).extractLsb' 6 2 = Chan.ch0.bits ∧ (0x34 : Byte).extractLsb' 4 2 = 3) ∧
    State.reset.params.policy = .placeholder := by decide

/-- ChannelSelectThreeRaises: the least and the greatest such byte. -/
theorem witness_ChannelSelectThreeRaises : (0xC0 : Byte).extractLsb' 6 2 = 3 ∧ (0xFF : Byte).extractLsb' 6 2 = 3 := by decide

/-- RefusePolicyRefusesNonzeroModes. -/
theorem witness_RefusePolicyRefusesNonzeroModes : refusing.params.policy = .refuse ∧ (7 : BitVec 3) ≠ 0 ∧
    Instr.pitCwSetMsb .ch1 7 0 ∈ [Instr.pitCwLatch .ch1 7 0, .pitCwSetLsb .ch1 7 0, .pitCwSetMsb .ch1 7 0, .pitCwSetLsbMsb .ch1 7 0] := by
  decide

/-- DirectCallsOutOfRangeRaise: the addresses just below and just above each device's four ports. -/
theorem witness_DirectCallsOutOfRangeRaise :
    (Access.read 0x8FFF).addr < State.reset.params.pitBase ∧ State.reset.params.pitBase + 3 < (Access.write 0x9004 0).addr ∧
    (Access.read 0x9FFF).addr < State.reset.params.ppiBase ∧ State.reset.params.ppiBase + 3 < (Access.read 0xA004).addr := by decide

/-- LowThenHighWrite: both write phases. -/
theorem witness_LowThenHighWrite : (State.reset.channel .ch0).writePhase = false ∧
    ((withCh0 { chan 0x30 0x00FF false false with writePhase := true }).channel .ch0).writePhase = true := ⟨rfl, rfl⟩

/-- BcdWriteClamp: each of the three rows is in its list. -/
theorem witness_BcdWriteClamp : ∀ i ∈ [Instr.pitWrDataLsb .ch0 0xAF, .pitWrDataMsb .ch0 0xAF, .pitWrDataLsbMsb .ch0 0xAF],
    i.writesData .ch0 = true := by decide

/-- LoadLatchReadRoundTrip: a channel that counts in binary with the write phase false. -/
theorem witness_LoadLatchReadRoundTrip : ((withCh0 (chan 0x30 0 true false)).channel .ch0).controlWord.extractLsb' 0 1 = 0 ∧
    ((withCh0 (chan 0x30 0 true false)).channel .ch0).writePhase = false := by decide

/-- BinaryDecrement and CountdownReachesZeroAndStays: a running binary channel, at 0xFFFF and at 0. -/
theorem witness_BinaryDecrement : let s := withCh0 (chan 0x30 0xFFFF true true)
    (s.channel .ch0).running = true ∧ (s.channel .ch0).controlWord.extractLsb' 0 1 = 0 ∧
    check (exec .pitTick s) (fun t => (t.channel .ch0).counter == 0xFFFE) = true := by decide

theorem witness_CountdownReachesZeroAndStays : ((withCh0 (chan 0x31 0 true true)).channel .ch0).counter = 0 ∧
    ((withCh0 (chan 0x30 2 true true)).channel .ch0).running = true ∧
    ((withCh0 (chan 0x30 2 true true)).channel .ch0).controlWord.extractLsb' 0 1 = 0 := by decide

/-- BcdDecrementByDigit and BcdDecrementIsDecimal: nonzero counters, borrowing from each digit. -/
theorem witness_BcdDecrementByDigit : (0x0001 : Word16) ≠ 0 ∧ (0x00A0 : Word16) ≠ 0 ∧ (0x0100 : Word16) ≠ 0 ∧
    (0xF000 : Word16) ≠ 0 := by decide

theorem witness_BcdDecrementIsDecimal : ((0x2500 : Word16) ≠ 0 ∧ ∀ j < 4, ((0x2500 : Word16).extractLsb' (4 * j) 4).toNat ≤ 9) ∧
    ((0x9999 : Word16) ≠ 0 ∧ ∀ j < 4, ((0x9999 : Word16).extractLsb' (4 * j) 4).toNat ≤ 9) := by decide

/-- ChannelFieldsHaveOnlyTheseWriters: an operation for each clause, which changes the field. -/
theorem witness_ChannelFieldsHaveOnlyTheseWriters :
    let s := withCh0 { chan 0x30 5 true true with output := true }
    s.pitExists = true ∧
    check (exec (.pitCwSetLsb .ch0 0 0) s) (fun t => (t.channel .ch0).controlWord != 0x30) = true ∧
    check (exec .pitTick s) (fun t => (t.channel .ch0).counter != 5 && !(t.channel .ch0).output) = true ∧
    check (exec (.pitCwLatch .ch0 0 0) s) (fun t => (t.channel .ch0).countLatch != 0) = true ∧
    check (exec (.pitRdLatched .ch0) s) (fun t => (t.channel .ch0).latchPhase) = true ∧
    check (exec (.pitRdLsbMsb .ch0) s) (fun t => (t.channel .ch0).readPhase) = true ∧
    check (exec (.pitWrDataLsbMsb .ch0 1) s) (fun t => (t.channel .ch0).writePhase) = true ∧
    check (exec (.pitSetGate .ch0 false) s) (fun t => !(t.channel .ch0).gate && !(t.channel .ch0).running) = true := by decide

/-- ChannelsAreIndependent: two machines that agree on channel 0 and differ elsewhere. -/
theorem witness_ChannelsAreIndependent : (Instr.pitSetGate .ch0 true).onChannel? = some .ch0 ∧
    State.reset.channel .ch0 = (State.reset.setChannel .ch1 (chan 0x71 9 true true)).channel .ch0 ∧
    State.reset.params = (State.reset.setChannel .ch1 (chan 0x71 9 true true)).params := by decide

/-- LatchSnapshotIsIsolated: a latch command at 0x1234, and then a tick, a latched read and a gate change (P4). -/
theorem witness_LatchSnapshotIsIsolated : (withCh0 (chan 0x30 0x1234 true true)).pitExists = true ∧ ∃ s1 u, exec (.pitCwLatch .ch0 0 0) (withCh0 (chan 0x30 0x1234 true true)) = .next s1 ∧
    s1.result = .ok ∧ Undisturbed .ch0 1 s1 u := by
  refine ⟨rfl, after (exec (.pitCwLatch .ch0 0 0) (withCh0 (chan 0x30 0x1234 true true))), ?_, rfl, rfl, ?_⟩
  · exact after (exec (.pitSetGate .ch0 true) (after (exec (.pitRdLatched .ch0) (after (exec .pitTick
      (after (exec (.pitCwLatch .ch0 0 0) (withCh0 (chan 0x30 0x1234 true true)))))))))
  · exact .other (.pitSetGate .ch0 true) (.read (.pitRdLatched .ch0)
      (.other .pitTick (.refl _) rfl rfl (by decide)) rfl rfl) rfl rfl (by decide)

/-- ClockConstruction: the period 0, and √2 with its negative, before the boot. -/
theorem witness_ClockConstruction : (Period.rational 0).Names 0 ∧
    ((Period.irrational true 0).Names √2 ∧ 0 < √2 ∧ blank.clockExists = false) ∧
    ((Period.irrational false 0).Names (-√2) ∧ -√2 ≤ 0) := by
  have h : 0 < √2 := by positivity
  refine ⟨by simp [Period.Names], ⟨⟨irrational_sqrt_two, by simp⟩, h, rfl⟩, ⟨irrational_sqrt_two.neg, by simp⟩, by linarith⟩

/-- TickAdvancesTheClock and TickNotifications: a running clock with the handler subscribed once, and a stopped one. -/
theorem witness_TickAdvancesTheClock : ticking.clock.running = true ∧ ticking.clock.tickListeners.count .pitTick = 1 ∧
    ticking.clock.doubleListeners.count .pitTick = 0 ∧ ticking.clock.quadListeners.count .pitTick = 0 ∧
    stopped.clock.running = false := by decide

theorem witness_TickNotifications : ticking.clock.running = true ∧ PhaseTracksTotal ticking := ⟨rfl, rfl⟩

/-- PeripheralInputPorts: the switches selected, and not. -/
theorem witness_PeripheralInputPorts :
    ({ State.reset with ppi := { port1Latch := 0x80 } } : State).ppi.port1Latch.getLsbD 7 = State.reset.params.port0SwitchWhen ∧
    State.reset.ppi.port1Latch.getLsbD 7 ≠ State.reset.params.port0SwitchWhen := by decide

/-- PeripheralLatchAndConfiguration: a byte that is not the hardwired one. -/
theorem witness_PeripheralLatchAndConfiguration : (0x98 : Byte) ≠ State.reset.params.ppiConfigByte := by decide

end Sys2Proof.Tests
end

section

/-! # The clock: proofs of the obligations of 40_clock.md -/

namespace Sys2Proof.Machine

/-- CLK_TOTAL_TICKS is dispatched to its own meaning (R109). -/
theorem exec_clkTotalTicks (s : State) : exec .clkTotalTicks s = execClkTotalTicks s := rfl

/-- Settles O58: the meaning of CLK_TOTAL_TICKS is one returned count, with no test of `running` and no other write. -/
theorem totalTicksIsRead : Obligations.TotalTicksIsRead := by
  intro s
  rw [exec_clkTotalTicks, execClkTotalTicks]

end Sys2Proof.Machine
end

section

/-! # The bus and the memory devices: proofs of the obligations of 41_bus.md -/

namespace Sys2Proof.Machine

/-! ## Dispatch -/

theorem exec_busRead (addr : Nat) (s : State) : exec (.busRead addr) s = execBusRead addr s := rfl

theorem exec_busWrite (addr : Nat) (v : Byte) (s : State) : exec (.busWrite addr v) s = execBusWrite addr v s := rfl

theorem exec_ramRead (n addr : Nat) (s : State) : exec (.ramRead n addr) s = execRamRead n addr s := rfl

theorem exec_ramWrite (n addr : Nat) (v : Byte) (s : State) :
    exec (.ramWrite n addr v) s = execRamWrite n addr v s := rfl

theorem exec_romRead (n addr : Nat) (s : State) : exec (.romRead n addr) s = execRomRead n addr s := rfl

theorem exec_romWrite (n addr : Nat) (v : Byte) (s : State) :
    exec (.romWrite n addr v) s = execRomWrite n addr v s := rfl

/-! ## Ranges and offsets -/

@[simp] theorem inRange_iff {base size : Int} {addr : Nat} :
    inRange base size addr = true ↔ base ≤ (addr : Int) ∧ (addr : Int) < base + size := by
  simp [inRange]

/-- At or above the base, the offset is the one natural number that `addr - base` is. -/
theorem eq_offsetOf_iff {base : Int} {addr : Nat} (h : base ≤ (addr : Int)) (j : Nat) :
    j = offsetOf base addr ↔ (j : Int) = (addr : Int) - base := by
  unfold offsetOf
  omega

/-! ## Access of a constructed memory device (R137) -/

theorem withRam_of_some {s : State} {n : Nat} {d : Ram} (hd : s.rams[n]? = some d) (addr : Nat)
    (k : Ram → Nat → Answer) :
    withRam n addr k s =
      if d.base ≤ (addr : Int) ∧ (addr : Int) < d.base + d.size then k d (offsetOf d.base addr)
      else .next (s.returning (.error (.addressRange addr))) := by
  simp only [withRam, hd, inRange_iff, raise]

theorem withRom_of_some {s : State} {n : Nat} {d : Rom} (hd : s.roms[n]? = some d) (addr : Nat)
    (k : Rom → Nat → Answer) :
    withRom n addr k s =
      if d.base ≤ (addr : Int) ∧ (addr : Int) < d.base + d.bytes.length then k d (offsetOf d.base addr)
      else .next (s.returning (.error (.addressRange addr))) := by
  simp only [withRom, hd, inRange_iff, raise]

/-! ## The lookup of an address (R126) -/

theorem lookup_eq_none_iff {bus : List BusEntry} {addr : Nat} :
    lookup bus addr = none ↔ ∀ e ∈ bus, ¬ (e.base ≤ (addr : Int) ∧ (addr : Int) < e.base + e.size) := by
  simp only [lookup, List.find?_eq_none, inRange_iff]

/-- What the lookup finds is registered and owns the address. -/
theorem lookup_some {bus : List BusEntry} {addr : Nat} {e : BusEntry} (h : lookup bus addr = some e) :
    e ∈ bus ∧ inRange e.base e.size addr = true := by
  unfold lookup at h
  have howns := List.find?_some h
  exact ⟨List.mem_of_find?_eq_some h, howns⟩

theorem BusEntry.Disjoint.symm {d e : BusEntry} (h : d.Disjoint e) : e.Disjoint d :=
  fun addr hed => h addr hed.symm

/-- Two registered devices that own one address are the same device: their ranges would intersect (R122). -/
theorem RangesDisjoint.owner_unique {s : State} (h : RangesDisjoint s) {d e : BusEntry} (hd : d ∈ s.bus) (he : e ∈ s.bus)
    {addr : Nat} (hda : inRange d.base d.size addr = true) (hea : inRange e.base e.size addr = true) : d = e := by
  have : Std.Symm BusEntry.Disjoint := ⟨fun _ _ => BusEntry.Disjoint.symm⟩
  obtain ⟨-, hpairwise⟩ := h
  by_contra hne
  exact hpairwise.forall hd he hne addr ⟨hda, hea⟩

/-- Under the non-overlap invariant the first device found is the only one that owns the address. -/
theorem RangesDisjoint.lookup_eq_some {s : State} (h : RangesDisjoint s) {e : BusEntry} (he : e ∈ s.bus) {addr : Nat}
    (hea : inRange e.base e.size addr = true) : lookup s.bus addr = some e := by
  cases hl : lookup s.bus addr with
  | none => exact absurd (inRange_iff.mp hea) (lookup_eq_none_iff.mp hl e he)
  | some d =>
    obtain ⟨hd, hda⟩ := lookup_some hl
    rw [h.owner_unique hd he hda hea]

/-! ## The obligations -/

/-- Settles O13: the lookup finds some owner, and under the non-overlap invariant there is at most one. -/
theorem lookupFindsTheOwner : Obligations.LookupFindsTheOwner := by
  intro s addr hdisj
  exact ⟨fun e he hlo hhi => hdisj.lookup_eq_some he (inRange_iff.mpr ⟨hlo, hhi⟩), lookup_eq_none_iff.mpr⟩

/-- Settles O15: the memory after the write is the old one with one byte put at the offset. -/
theorem ramWriteStoresOneByte : Obligations.RamWriteStoresOneByte := by
  intro s n addr v d hd
  rw [exec_ramWrite, execRamWrite, withRam_of_some hd]
  constructor
  · intro hlo hhi
    refine ⟨d.mem.put (offsetOf d.base addr) v, if_pos ⟨hlo, hhi⟩, ?_, ?_⟩
    · intro j hj
      rw [(eq_offsetOf_iff hlo j).mpr hj, ramByte_put_same]
    · intro j hj
      exact ramByte_put_other n d.mem v (mt (eq_offsetOf_iff hlo j).mp hj)
  · intro hout
    exact if_neg hout

/-- Settles O12: the lookup of an unowned address is none, and both bus operations answer that case by themselves. -/
theorem openBusIsTolerated : Obligations.OpenBusIsTolerated := by
  intro s addr v hopen
  have hl : lookup s.bus addr = none := lookup_eq_none_iff.mpr hopen
  constructor
  · simp only [exec_busRead, execBusRead, hl]
  · simp only [exec_busWrite, execBusWrite, hl]

/-- Settles O16: the read is of the byte at `offsetOf`, which is the offset `addr - base`. -/
theorem ramReadReturnsTheByte : Obligations.RamReadReturnsTheByte := by
  intro s n addr d hd
  rw [exec_ramRead, execRamRead, withRam_of_some hd]
  constructor
  · intro j hlo hhi hj
    rw [if_pos ⟨hlo, hhi⟩, (eq_offsetOf_iff hlo j).mpr hj]
  · intro hout
    exact if_neg hout

/-- Settles O17: an offset at which the ROM has a byte is one in range, and the read returns that byte. -/
theorem romReadsItsBytesAndIgnoresWrites : Obligations.RomReadsItsBytesAndIgnoresWrites := by
  intro s n addr v d hd
  rw [exec_romRead, exec_romWrite, execRomRead, execRomWrite, withRom_of_some hd, withRom_of_some hd]
  constructor
  · intro j b hj hb
    obtain ⟨hlt, -⟩ := List.getElem?_eq_some_iff.mp hb
    have hin : d.base ≤ (addr : Int) ∧ (addr : Int) < d.base + d.bytes.length := by omega
    have hoff : j = offsetOf d.base addr := (eq_offsetOf_iff hin.left j).mpr hj
    constructor
    · rw [if_pos hin, ← hoff, List.getD_eq_getElem?_getD, hb, Option.getD_some]
    · exact if_pos hin
  · intro hout
    exact ⟨if_neg hout, if_neg hout⟩

end Sys2Proof.Machine
end

section

/-! # The mode words of the PIT: proofs of the obligations of 42_pit_control.md -/

namespace Sys2Proof.Machine

theorem exec_pitCwLatch (c : Chan) (m : BitVec 3) (bcd : BitVec 1) (s : State) :
    exec (.pitCwLatch c m bcd) s = execPitCwLatch c m bcd s := rfl

/-- A byte with the fields SC and AM of a row is the mode word that the row builds from the byte's M and BCD. -/
theorem modeByte_of_fields {v : Byte} {sc am : BitVec 2} (hsc : scField v = sc) (ham : amField v = am) :
    modeByte sc am (mField v) (bcdField v) = v := by
  rw [← hsc, ← ham, modeByte_fields]

/-! ## The policy for nonzero modes (R207) -/

theorem refusesMode_eq_true_iff {p : Params} {v : Byte} :
    refusesMode p v = true ↔ p.policy = .refuse ∧ mField v ≠ 0 := by
  simp [refusesMode]

theorem refusesMode_eq_false {p : Params} {v : Byte} (h : p.policy = .placeholder ∨ mField v = 0) :
    refusesMode p v = false := by
  rcases h with hpolicy | hmode
  · simp [refusesMode, hpolicy]
  · simp [refusesMode, hmode]

/-! ## The two answers of a mode-word write -/

theorem writeModeWord_of_admitted {c : Chan} {v : Byte} {s : State} (f : Channel → Channel)
    (h : s.params.policy = .placeholder ∨ mField v = 0) :
    writeModeWord c v f s = .next ((s.setChannel c (f { s.channel c with controlWord := v })).returning .ok) := by
  simp [writeModeWord, refusesMode_eq_false h]

theorem writeModeWord_of_refused {c : Chan} {v : Byte} {s : State} (f : Channel → Channel)
    (hpolicy : s.params.policy = .refuse) (hmode : mField v ≠ 0) :
    writeModeWord c v f s = refuseForm (.modeWord v) s := by
  rw [writeModeWord, if_pos (refusesMode_eq_true_iff.mpr ⟨hpolicy, hmode⟩)]

/-- Recording an outcome and returning it writes `faults` and `result` alone. -/
theorem record_returning_eq (s : State) (f : FaultRecord) (r : Result) :
    (s.record f).returning r = { s with faults := (s.record f).faults, result := r } := by
  unfold State.record
  split <;> rfl

/-- A Refused form is recorded and returned, and no device state is written (R248). -/
theorem refuseForm_records (r : RefusedForm) (s : State) :
    ∃ t, refuseForm r s = .next t ∧ t.result = .refused r ∧ .refused r ∈ t.faults ∧
      t = { s with faults := t.faults, result := t.result } :=
  ⟨(s.record (.refused r)).returning (.refused r), rfl, rfl, mem_record.mpr (.inl rfl), record_returning_eq _ _ _⟩

/-! ## The obligation -/

/-- Settles O30: the row rebuilds the byte it was decoded from, so the command is the mode-word write of that byte, and
the policy decides between the write of the snapshot and the recorded refusal. -/
theorem latchCommandSnapshots : Obligations.LatchCommandSnapshots := by
  intro s c v hsc ham
  have hexec : exec (.pitCwLatch c (mField v) (bcdField v)) s = writeModeWord c v Channel.takeLatch s := by
    rw [exec_pitCwLatch, execPitCwLatch, modeByte_of_fields hsc ham]
  constructor
  · intro hadmitted
    exact hexec.trans (writeModeWord_of_admitted _ hadmitted)
  · intro hpolicy hmode
    obtain ⟨t, hnext, ht⟩ := refuseForm_records (.modeWord v) s
    exact ⟨t, (hexec.trans (writeModeWord_of_refused _ hpolicy hmode)).trans hnext, ht⟩

end Sys2Proof.Machine
end

section

/-! # The data ports of the PIT: proofs of the obligations of 43_pit_data.md -/

namespace Sys2Proof.Machine

/-! ## Dispatch -/

theorem exec_pitWrDataLsb (c : Chan) (v : Byte) (s : State) : exec (.pitWrDataLsb c v) s = execPitWrDataLsb c v s := rfl

theorem exec_pitWrDataMsb (c : Chan) (v : Byte) (s : State) : exec (.pitWrDataMsb c v) s = execPitWrDataMsb c v s := rfl

theorem exec_pitWrDataLsbMsb (c : Chan) (v : Byte) (s : State) :
    exec (.pitWrDataLsbMsb c v) s = execPitWrDataLsbMsb c v s := rfl

theorem exec_pitRdLatched (c : Chan) (s : State) : exec (.pitRdLatched c) s = execPitRdLatched c s := rfl

theorem exec_pitRdLsb (c : Chan) (s : State) : exec (.pitRdLsb c) s = execPitRdLsb c s := rfl

theorem exec_pitRdMsb (c : Chan) (s : State) : exec (.pitRdMsb c) s = execPitRdMsb c s := rfl

theorem exec_pitRdLsbMsb (c : Chan) (s : State) : exec (.pitRdLsbMsb c) s = execPitRdLsbMsb c s := rfl

/-! ## Reads -/

/-- The phase picks the lowest bit of the byte returned (R176, R179). -/
theorem phaseByte_eq_extractLsb (phase : Bool) (w : Word16) :
    phaseByte phase w = w.extractLsb' (if phase then 8 else 0) 8 := by
  cases phase <;> rfl

/-! ## The BCD write clamp (R170) -/

theorem toNat_clampNib (n : BitVec 4) : (clampNib n).toNat = min n.toNat 9 := by
  unfold clampNib
  split
  case isTrue hgt =>
    have hlt : 9 < n.toNat := hgt
    exact (Nat.min_eq_right hlt.le).symm
  case isFalse hle =>
    have hnot : ¬ 9 < n.toNat := hle
    exact (Nat.min_eq_left (Nat.not_lt.mp hnot)).symm

/-- The clamp of a byte is the clamp of its two nibbles; the quotient by 16 is a nibble already. -/
theorem toNat_clampBcd (v : Byte) : (clampBcd v).toNat = min (v.toNat / 16) 9 * 16 + min (v.toNat % 16) 9 := by
  have hnibble : v.toNat / 16 % 16 = v.toNat / 16 := Nat.mod_eq_of_lt (Nat.div_lt_of_lt_mul v.isLt)
  simp only [clampBcd, toNat_concat, toNat_clampNib, toNat_field, Nat.reducePow, Nat.div_one, hnibble]

/-- The byte a data write stores, by the BCD bit of the control word. -/
theorem writeByte_bcd (x : Channel) (v : Byte) :
    writeByte x.bcd v = if x.controlWord.extractLsb' 0 1 = 1 then clampBcd v else v := by
  simp only [writeByte, Channel.bcd, bcdField, beq_iff_eq]

/-! ## Data writes -/

@[simp] theorem arm_counter (x : Channel) : x.arm.counter = x.counter := by rw [arm_eq]

/-- `is` is the counter `was` with one of its two bytes replaced by `b`. -/
def ReplacesOneByte (b : Byte) (was is : Word16) : Prop :=
  (lo is = b ∧ hi is = hi was) ∨ (hi is = b ∧ lo is = lo was)

theorem replacesOneByte_withLo (b : Byte) (w : Word16) : ReplacesOneByte b w (withLo w b) :=
  .inl ⟨lo_withLo w b, hi_withLo w b⟩

theorem replacesOneByte_withHi (b : Byte) (w : Word16) : ReplacesOneByte b w (withHi w b) :=
  .inr ⟨hi_withHi w b, lo_withHi w b⟩

/-- The answer is a next state in which channel `c`'s counter has one byte replaced by the byte that a data write of `v`
stores. -/
def StoresWriteByte (c : Chan) (v : Byte) (s : State) (a : Answer) : Prop :=
  ∃ t, a = .next t ∧ ReplacesOneByte (writeByte (s.channel c).bcd v) (s.channel c).counter (t.channel c).counter

theorem storeChannel_storesWriteByte {c : Chan} {v : Byte} {s : State} {x : Channel}
    (h : ReplacesOneByte (writeByte (s.channel c).bcd v) (s.channel c).counter x.counter) :
    StoresWriteByte c v s (storeChannel c x s) :=
  ⟨(s.setChannel c x).returning .ok, rfl, by rwa [returning_channel, setChannel_same]⟩

/-- Arming after the store does not touch the counter. -/
theorem storeChannel_arm_storesWriteByte {c : Chan} {v : Byte} {s : State} {x : Channel}
    (h : ReplacesOneByte (writeByte (s.channel c).bcd v) (s.channel c).counter x.counter) :
    StoresWriteByte c v s (storeChannel c x.arm s) :=
  storeChannel_storesWriteByte (by rwa [arm_counter])

theorem execPitWrDataLsb_storesWriteByte (c : Chan) (v : Byte) (s : State) :
    StoresWriteByte c v s (execPitWrDataLsb c v s) :=
  storeChannel_arm_storesWriteByte (replacesOneByte_withLo _ _)

theorem execPitWrDataMsb_storesWriteByte (c : Chan) (v : Byte) (s : State) :
    StoresWriteByte c v s (execPitWrDataMsb c v s) :=
  storeChannel_arm_storesWriteByte (replacesOneByte_withHi _ _)

/-- The write phase decides which byte is replaced: the high one at the second write, the low one at the first (R175). -/
theorem execPitWrDataLsbMsb_storesWriteByte (c : Chan) (v : Byte) (s : State) :
    StoresWriteByte c v s (execPitWrDataLsbMsb c v s) := by
  simp only [execPitWrDataLsbMsb]
  split
  case isTrue => exact storeChannel_arm_storesWriteByte (replacesOneByte_withHi _ _)
  case isFalse => exact storeChannel_storesWriteByte (replacesOneByte_withLo _ _)

/-- Each of the three rows of a data write stores the byte, clamped when the channel counts in BCD. -/
theorem dataWrite_storesWriteByte (s : State) (c : Chan) (v : Byte) :
    ∀ i ∈ [Instr.pitWrDataLsb c v, .pitWrDataMsb c v, .pitWrDataLsbMsb c v], StoresWriteByte c v s (exec i s) := by
  simp only [List.forall_mem_cons, exec_pitWrDataLsb, exec_pitWrDataMsb, exec_pitWrDataLsbMsb]
  exact ⟨execPitWrDataLsb_storesWriteByte c v s, execPitWrDataMsb_storesWriteByte c v s,
    execPitWrDataLsbMsb_storesWriteByte c v s, List.forall_mem_nil _⟩

/-! ## The obligations -/

/-- Settles O43: the clamp is computed nibble by nibble, and each of the three rows replaces one byte of the counter by the
byte that the BCD bit selects. -/
theorem bcdWriteClamp : Obligations.BcdWriteClamp := by
  refine ⟨toNat_clampBcd, ?_⟩
  intro s c v i hmem
  obtain ⟨t, hnext, hstored⟩ := dataWrite_storesWriteByte s c v i hmem
  rw [writeByte_bcd] at hstored
  exact ⟨t, hnext, hstored⟩

/-- Settles O40: the row returns the byte of the latch that the latch phase selects, and toggles that phase alone. -/
theorem latchedRead : Obligations.LatchedRead := by
  intro s c
  rw [exec_pitRdLatched, execPitRdLatched, phaseByte_eq_extractLsb, loadChannel, Channel.toggleLatchPhase]

/-- Settles O41: each row returns one byte of the live counter and writes nothing else. -/
theorem singleByteReads : Obligations.SingleByteReads := by
  intro s c
  constructor
  · rw [exec_pitRdLsb, execPitRdLsb, lo]
  · rw [exec_pitRdMsb, execPitRdMsb, hi]

/-- Settles O42: the row returns the byte of the live counter that the read phase selects, and toggles that phase alone. -/
theorem lowThenHighRead : Obligations.LowThenHighRead := by
  intro s c
  rw [exec_pitRdLsbMsb, execPitRdLsbMsb, phaseByte_eq_extractLsb, loadChannel, Channel.toggleReadPhase]

end Sys2Proof.Machine
end

section

/-! # Counting: proofs of the obligations of 44_pit_counting.md -/

namespace Sys2Proof.Machine

/-- The tick handler is dispatched to its own meaning and always answers a next state (R200). -/
theorem exec_pitTick (s : State) : exec .pitTick s = .next (s.pitTick.returning .ok) := rfl

/-! ## One tick of a channel -/

@[simp] theorem tick_running (x : Channel) : x.tick.running = x.running := rfl

@[simp] theorem tick_controlWord (x : Channel) : x.tick.controlWord = x.controlWord := rfl

@[simp] theorem tick_counter (x : Channel) : x.tick.counter = x.nextCount := rfl

/-- A counter at 0 is never decremented, whatever the coding and whether or not the channel is running (R203). -/
theorem nextCount_of_counter_eq_zero {x : Channel} (h : x.counter = 0) : x.nextCount = x.counter := by
  simp [Channel.nextCount, h]

theorem tick_of_counter_eq_zero {x : Channel} (h : x.counter = 0) : x.tick = { x with output := false } := by
  rw [Channel.tick, nextCount_of_counter_eq_zero h]

theorem toNat_binDec {w : Word16} (h : w ≠ 0) : (binDec w).toNat = w.toNat - 1 :=
  BitVec.toNat_sub_of_le (by bv_omega)

/-- A running channel that counts in binary (R201; R36). -/
def CountsBinary (x : Channel) : Prop := x.running = true ∧ x.controlWord.extractLsb' 0 1 = 0

theorem CountsBinary.bcd_eq_false {x : Channel} (h : CountsBinary x) : x.bcd = false := by
  obtain ⟨-, hbit⟩ := h
  simp [Channel.bcd, bcdField, hbit]

theorem CountsBinary.tick {x : Channel} (h : CountsBinary x) : CountsBinary x.tick := h

theorem CountsBinary.nextCount_eq_binDec {x : Channel} (h : CountsBinary x) (hne : x.counter ≠ 0) :
    x.nextCount = binDec x.counter := by
  have hbcd := h.bcd_eq_false
  obtain ⟨hrun, -⟩ := h
  rw [Channel.nextCount, if_pos (by simpa [hrun] using hne), hbcd, if_neg Bool.false_ne_true]

/-- The natural subtraction is cut off at 0 exactly where the decrement is guarded, so the count never wraps (R201). -/
theorem CountsBinary.toNat_nextCount {x : Channel} (h : CountsBinary x) : x.nextCount.toNat = x.counter.toNat - 1 := by
  by_cases hzero : x.counter = 0
  · rw [nextCount_of_counter_eq_zero hzero, hzero]
    rfl
  · rw [h.nextCount_eq_binDec hzero, toNat_binDec hzero]

/-! ## Many ticks -/

theorem tickTimes_succ (k : Nat) (s : State) : tickTimes (k + 1) s = tickTimes k (s.pitTick.returning .ok) := rfl

/-- The handler run `k` times answers a next state, in which every channel has been ticked `k` times. -/
theorem tickTimes_channel (k : Nat) (s : State) :
    ∃ t, tickTimes k s = .next t ∧ ∀ c, t.channel c = Channel.tick^[k] (s.channel c) := by
  induction k generalizing s with
  | zero => exact ⟨s, rfl, fun _ => rfl⟩
  | succ k ih =>
    obtain ⟨t, hnext, hchannel⟩ := ih (s.pitTick.returning .ok)
    refine ⟨t, (tickTimes_succ k s).trans hnext, fun c => ?_⟩
    rw [hchannel, returning_channel, pitTick_channel, Function.iterate_succ_apply]

theorem CountsBinary.iterate_tick {x : Channel} (h : CountsBinary x) (k : Nat) : CountsBinary (Channel.tick^[k] x) := by
  induction k generalizing x with
  | zero => exact h
  | succ k ih => exact ih h.tick

theorem CountsBinary.toNat_counter_iterate_tick {x : Channel} (h : CountsBinary x) (k : Nat) :
    (Channel.tick^[k] x).counter.toNat = x.counter.toNat - k := by
  induction k with
  | zero => rfl
  | succ k ih =>
    rw [Function.iterate_succ_apply', tick_counter, (h.iterate_tick k).toNat_nextCount, ih, Nat.sub_sub]

/-! ## The obligations -/

/-- Settles O46: the handler ticks the channel, and the tick of a running binary channel is the cut-off subtraction. -/
theorem binaryDecrement : Obligations.BinaryDecrement := by
  intro s t c hrun hbit hnext
  obtain rfl := Host.Outcome.next.inj ((exec_pitTick s).symm.trans hnext)
  rw [returning_channel, pitTick_channel, tick_counter]
  exact CountsBinary.toNat_nextCount ⟨hrun, hbit⟩

/-- Settles O49: a tick of a channel at 0 only clears its output; and after `k` ticks a running binary channel at N holds
the cut-off difference of N and `k`, which is 0 exactly when N ≤ `k`. -/
theorem countdownReachesZeroAndStays : Obligations.CountdownReachesZeroAndStays := by
  constructor
  · intro s c hzero
    refine ⟨s.pitTick.returning .ok, exec_pitTick s, ?_⟩
    rw [returning_channel, pitTick_channel, tick_of_counter_eq_zero hzero]
  · intro s c k hrun hbit
    have hcounts : CountsBinary (s.channel c) := ⟨hrun, hbit⟩
    obtain ⟨t, hnext, hchannel⟩ := tickTimes_channel k s
    have hcount : (t.channel c).counter.toNat = (s.channel c).counter.toNat - k := by
      rw [hchannel, hcounts.toNat_counter_iterate_tick]
    have hrunning : (t.channel c).running = true := by
      rw [hchannel]
      exact (hcounts.iterate_tick k).left
    refine ⟨t, hnext, hcount, hrunning, ?_⟩
    rw [← BitVec.toNat_inj, hcount]
    exact Nat.sub_eq_zero_iff_le

end Sys2Proof.Machine
end

section

/-! # The PeripheralInterface: proofs of the obligations of 45_peripheral_interface.md -/

namespace Sys2Proof.Machine

/-! ## Dispatch -/

theorem exec_ppiWr1 (v : Byte) (s : State) : exec (.ppiWr1 v) s = execPpiWr1 v s := rfl

theorem exec_ppiRd3 (s : State) : exec .ppiRd3 s = execPpiRd3 s := rfl

theorem exec_ppiWr3 (v : Byte) (s : State) : exec (.ppiWr3 v) s = execPpiWr3 v s := rfl

/-! ## The two answers of a port-3 write (R228) -/

theorem execPpiWr3_of_eq {v : Byte} {s : State} (h : v = s.params.ppiConfigByte) :
    execPpiWr3 v s = .next (s.returning .ok) := by
  rw [execPpiWr3, if_pos h]

theorem execPpiWr3_of_ne {v : Byte} {s : State} (h : v ≠ s.params.ppiConfigByte) :
    execPpiWr3 v s = .next (s.returning (.error (.unsupportedConfiguration v))) := by
  rw [execPpiWr3, if_neg h, raise]

/-! ## The obligation -/

/-- Settles O60: the meanings of PPI_WR1 and PPI_RD3 are one next state each, and that of PPI_WR3 compares the byte with the
hardwired one. -/
theorem peripheralLatchAndConfiguration : Obligations.PeripheralLatchAndConfiguration := by
  intro s v
  refine ⟨?_, ?_, ?_, fun hne => ?_⟩
  · rw [exec_ppiWr1, execPpiWr1]
  · rw [exec_ppiRd3, execPpiRd3]
  · rw [exec_ppiWr3, execPpiWr3_of_eq rfl]
  · rw [exec_ppiWr3, execPpiWr3_of_ne hne]

end Sys2Proof.Machine
end

section

/-! # What an operation can do

`Performs s i t` lists the next states of an operation, one case per kind of write; `Declines s i` says where it is refused. That
`exec` answers nothing else is `exec_answers`, and every statement over all operations is derived from it. -/

namespace Sys2Proof

/-! ## Kinds of operations -/

/-- A bus access or a direct call: an operation that another one is performed for (41_bus.md R124, R125; 42_pit_control.md R151). -/
def Instr.isRouted : Instr → Bool
  | .busRead _ | .busWrite _ _ | .pitBadOffset _ | .ppiBadOffset _ => true
  | _ => false

/-- A row of the PIT's or of the PeripheralInterface's ports, a call outside the ports among them. -/
def Instr.isPortRow : Instr → Bool
  | .pitCwSc3 _ _ _ | .pitCwLatch _ _ _ | .pitCwSetLsb _ _ _ | .pitCwSetMsb _ _ _ | .pitCwSetLsbMsb _ _ _
  | .pitWrDataAm0 _ _ | .pitWrDataLsb _ _ | .pitWrDataMsb _ _ | .pitWrDataLsbMsb _ _
  | .pitRdLatched _ | .pitRdLsb _ | .pitRdMsb _ | .pitRdLsbMsb _ | .pitRdCw | .pitBadOffset _
  | .ppiRd0 | .ppiWr0 _ | .ppiRd1 | .ppiWr1 _ | .ppiRd2 | .ppiWr2 _ | .ppiRd3 | .ppiWr3 _ | .ppiBadOffset _ => true
  | _ => false

/-- The RAM or ROM device that an operation names as the one it accesses, and the address. -/
def Instr.memoryAccess? : Instr → Option (DeviceRef × Nat)
  | .ramRead n addr | .ramWrite n addr _ => some (.ram n, addr)
  | .romRead n addr | .romWrite n addr _ => some (.rom n, addr)
  | _ => none

/-- The four rows that access a memory device. -/
theorem memoryAccess?_cases {i : Instr} {d : DeviceRef} {addr : Nat} (h : i.memoryAccess? = some (d, addr)) :
    (∃ n, d = .ram n ∧ (i = .ramRead n addr ∨ ∃ v, i = .ramWrite n addr v)) ∨
    ∃ n, d = .rom n ∧ (i = .romRead n addr ∨ ∃ v, i = .romWrite n addr v) := by
  unfold Instr.memoryAccess? at h
  split at h <;> cases h
  · exact .inl ⟨_, rfl, .inl rfl⟩
  · exact .inl ⟨_, rfl, .inr ⟨_, rfl⟩⟩
  · exact .inr ⟨_, rfl, .inl rfl⟩
  · exact .inr ⟨_, rfl, .inr ⟨_, rfl⟩⟩

theorem memoryAccess?_of_isPortRow {i : Instr} (hi : i.isPortRow = true) : i.memoryAccess? = none := by
  unfold Instr.memoryAccess?
  split
  case h_5 => rfl
  all_goals cases hi

/-- Every decoded PIT transaction is a port row that is performed by itself. -/
theorem decodePtw_row (ctx : DecodeCtx) (w : PortWord) :
    (decodePtw ctx w).isRouted = false ∧ (decodePtw ctx w).isPortRow = true := by
  unfold decodePtw
  split
  · split
    · unfold decodeModeWord
      split
      · exact ⟨rfl, rfl⟩
      · split <;> exact ⟨rfl, rfl⟩
    · exact ⟨rfl, rfl⟩
  · split
    · unfold decodeDataWrite
      split <;> exact ⟨rfl, rfl⟩
    · unfold decodeDataRead
      split <;> exact ⟨rfl, rfl⟩

/-- Every decoded PeripheralInterface transaction is a port row that is performed by itself. -/
theorem decodePpw_row (w : PortWord) : (decodePpw w).isRouted = false ∧ (decodePpw w).isPortRow = true := by
  unfold decodePpw
  repeat' split
  all_goals exact ⟨rfl, rfl⟩

theorem decodePitDirect_isPortRow (ctx : DecodeCtx) (acc : Access) : (decodePitDirect ctx acc).isPortRow = true := by
  unfold decodePitDirect
  split
  · exact (decodePtw_row ctx _).right
  · rfl

theorem decodePpiDirect_isPortRow (ctx : DecodeCtx) (acc : Access) : (decodePpiDirect ctx acc).isPortRow = true := by
  unfold decodePpiDirect
  split
  · exact (decodePpw_row _).right
  · rfl

end Sys2Proof

namespace Sys2Proof.Machine

/-! ## The answers of an operation -/

/-- The results of an operation that completes: none is an error or a model-only outcome (00_scope.md R10). -/
def Result.completes : Result → Bool
  | .ok | .byte _ | .count _ | .notEnabled => true
  | .idle | .error _ | .undefined _ | .refused _ => false

/-- Operation `i` is an access at `addr` outside the range of its device (41_bus.md R137; 42_pit_control.md R159;
45_peripheral_interface.md R229). -/
inductive Misses (s : State) (i : Instr) (addr : Nat) : Prop where
  | memory (d : DeviceRef) (e : BusEntry) (hi : i.memoryAccess? = some (d, addr)) (he : s.deviceEntry d = some e)
      (hout : inRange e.base e.size addr = false)
  | pit (acc : Access) (hi : i = .pitBadOffset acc) (hacc : acc.addr = addr) (hout : inPorts s.params.pitBase addr = false)
  | ppi (acc : Access) (hi : i = .ppiBadOffset acc) (hacc : acc.addr = addr) (hout : inPorts s.params.ppiBase addr = false)

/-- What an operation on channel `c` makes of the channel, one case per effect of 42_pit_control.md, 43_pit_data.md and
44_pit_counting.md section 3. -/
inductive ChannelStep (p : Params) (i : Instr) (c : Chan) (x : Channel) : Channel → Prop where
  | modeWord (am : BitVec 2) (m : BitVec 3) (b : BitVec 1) (hi : i.writesModeWord c = true)
      (hp : refusesMode p (modeByte c.bits am m b) = false) :
      ChannelStep p i c x { x with controlWord := modeByte c.bits am m b }
  | latchCommand (m : BitVec 3) (b : BitVec 1) (hi : i = .pitCwLatch c m b)
      (hp : refusesMode p (modeByte c.bits 0 m b) = false) :
      ChannelStep p i c x { x with
        controlWord := modeByte c.bits 0 m b, countLatch := x.counter, latchPhase := false }
  | singleByte (w : Word16) (hi : i.writesData c = true) : ChannelStep p i c x { x with counter := w }.arm
  | firstByte (v : Byte) (w : Word16) (hi : i = .pitWrDataLsbMsb c v) :
      ChannelStep p i c x { x with counter := w, writePhase := true }
  | secondByte (v : Byte) (w : Word16) (hi : i = .pitWrDataLsbMsb c v) :
      ChannelStep p i c x { x with counter := w, writePhase := false }.arm
  | latchedRead (hi : i = .pitRdLatched c) : ChannelStep p i c x x.toggleLatchPhase
  | pairRead (hi : i = .pitRdLsbMsb c) : ChannelStep p i c x x.toggleReadPhase
  | gate (level : Bool) (hi : i = .pitSetGate c level) : ChannelStep p i c x (x.setGate level)

/-- Operation `i`, performed in `s`, may answer the next state: one case per kind of write. -/
inductive Performs (s : State) (i : Instr) : State → Prop where
  | answers (r : Result) (hr : r.completes = true) : Performs s i (s.returning r)
  | raises (e : HwError) (hmiss : ∀ addr, e = .addressRange addr → Misses s i addr) :
      Performs s i (s.returning (.error e))
  | undefined (u : UndefinedAccess) : Performs s i ((s.record (.undefined u)).returning (.undefined u))
  | refuses (f : RefusedForm) : Performs s i ((s.record (.refused f)).returning (.refused f))
  | draws (b : Byte) : Performs s i (s.drawn.returning (.byte b))
  | latches (v : Byte) : Performs s i
      ({ s with ppi := { port1Latch := v }, keyboard := { clockEnable := v.getLsbD 6 } }.returning .ok)
  | channel (c : Chan) (y : Channel) (r : Result) (hr : r.completes = true)
      (hstep : ChannelStep s.params i c (s.channel c) y) : Performs s i ((s.setChannel c y).returning r)
  | runsHandler (hi : i = .pitTick) : Performs s i (s.pitTick.returning .ok)
  | constructsPit (hi : i = .pitConstruct) (hnew : s.pitExists = false) : Performs s i ({ s with
      pitExists := true, pit := Pit.zero, clock := s.clock.subscribe .tick .pitTick }.returning .ok)
  | constructsClock (period : Period) (hpos : periodPositive period = true) (hnew : s.clockExists = false) :
      Performs s i ({ s with clockExists := true, clock := Clock.constructed period }.returning .ok)
  | subscribes (k : EventKind) (l : Listener) : Performs s i ({ s with clock := s.clock.subscribe k l }.returning .ok)
  | setsRunning (b : Bool) : Performs s i ({ s with clock := { s.clock with running := b } }.returning .ok)
  | ticksClock (hi : i = .clkTick) : Performs s i (s.baseTick.returning .ok)
  | registers (d : DeviceRef) (x : BusEntry) (hi : i = .busRegister d) (hx : s.deviceEntry d = some x)
      (hok : x.configOk = true) (hfree : s.bus.find? (overlaps x) = none) :
      Performs s i ({ s with bus := s.bus ++ [x] }.returning .ok)
  | constructsRam (base size : Int) : Performs s i
      ({ s with rams := s.rams ++ [({ base := base, size := size, mem := [] } : Ram)] }.returning .ok)
  | writesRam (n : Nat) (d : Ram) (j : Nat) (v : Byte) (hd : s.rams[n]? = some d) (hj : (j : Int) < d.size) :
      Performs s i ({ s with rams := s.rams.set n { d with mem := Memory.put d.mem j v } }.returning .ok)
  | constructsRom (base : Int) (bytes : List Byte) : Performs s i
      ({ s with roms := s.roms ++ [({ base := base, bytes := bytes } : Rom)] }.returning .ok)

/-- Operation `i` has no meaning in `s`: it names a device that does not exist, or constructs a unit that does
(notes/assumptions/14.md and 18.md). -/
inductive Declines (s : State) (i : Instr) : Prop where
  | noMemory (d : DeviceRef) (addr : Nat) (hi : i.memoryAccess? = some (d, addr)) (hd : s.deviceEntry d = none)
  | noDevice (d : DeviceRef) (hi : i = .busRegister d) (hd : s.deviceEntry d = none)
  | clockExists (period : Period) (hi : i = .clkConstruct period) (h : s.clockExists = true)
  | pitExists (hi : i = .pitConstruct) (h : s.pitExists = true)

/-- What `a` may be as the answer of operation `i` in `s`. -/
def Answers (s : State) (i : Instr) (a : Answer) : Prop :=
  match a with
  | .next t => Performs s i t
  | .refused _ => Declines s i
  | .fault _ => False

/-! ## The shared operations -/

section
variable {s : State} {i : Instr}

theorem answers_raise {e : HwError} (hmiss : ∀ addr, e = .addressRange addr → Misses s i addr) :
    Answers s i (raise e s) :=
  .raises e hmiss

theorem answers_writeModeWord {c : Chan} {v : Byte} {f : Channel → Channel}
    (h : refusesMode s.params v = false → ChannelStep s.params i c (s.channel c) (f { s.channel c with controlWord := v })) :
    Answers s i (writeModeWord c v f s) := by
  unfold writeModeWord
  cases hr : refusesMode s.params v with
  | true => exact .refuses _
  | false => exact .channel c _ .ok rfl (h hr)

theorem answers_withRam {n addr : Nat} {k : Ram → Nat → Answer} (hi : i.memoryAccess? = some (.ram n, addr))
    (hk : ∀ d, s.rams[n]? = some d → (offsetOf d.base addr : Int) < d.size → Answers s i (k d (offsetOf d.base addr))) :
    Answers s i (withRam n addr k s) := by
  obtain ⟨hn, h⟩ | ⟨d, hd, ⟨hout, h⟩ | ⟨-, hj, h⟩⟩ := withRam_cases n addr k s
  · rw [h]
    exact .noMemory _ addr hi (Option.map_eq_none_iff.mpr hn)
  · rw [h]
    exact answers_raise fun _ he => by cases he; exact .memory _ _ hi (Option.map_eq_some_iff.mpr ⟨d, hd, rfl⟩) hout
  · rw [h]
    exact hk d hd hj

theorem answers_withRom {n addr : Nat} {k : Rom → Nat → Answer} (hi : i.memoryAccess? = some (.rom n, addr))
    (hk : ∀ d, Answers s i (k d (offsetOf d.base addr))) : Answers s i (withRom n addr k s) := by
  obtain ⟨hn, h⟩ | ⟨d, hd, ⟨hout, h⟩ | ⟨-, -, h⟩⟩ := withRom_cases n addr k s
  · rw [h]
    exact .noMemory _ addr hi (Option.map_eq_none_iff.mpr hn)
  · rw [h]
    exact answers_raise fun _ he => by cases he; exact .memory _ _ hi (Option.map_eq_some_iff.mpr ⟨d, hd, rfl⟩) hout
  · rw [h]
    exact hk d

end

/-! ## The operations with a meaning of more than one case -/

theorem execPitWrDataLsbMsb_answers (c : Chan) (v : Byte) (s : State) :
    Answers s (.pitWrDataLsbMsb c v) (execPitWrDataLsbMsb c v s) := by
  simp only [execPitWrDataLsbMsb]
  split
  · exact .channel c _ .ok rfl (.secondByte v _ rfl)
  · exact .channel c _ .ok rfl (.firstByte v _ rfl)

theorem execPitConstruct_answers (s : State) : Answers s .pitConstruct (execPitConstruct s) := by
  obtain ⟨hp, h⟩ | ⟨hp, h⟩ := execPitConstruct_cases s <;> rw [h]
  · exact .pitExists rfl hp
  · exact .constructsPit rfl hp

theorem execClkConstruct_answers (period : Period) (s : State) :
    Answers s (.clkConstruct period) (execClkConstruct period s) := by
  obtain ⟨-, h⟩ | ⟨-, hc, h⟩ | ⟨hpos, hc, h⟩ := execClkConstruct_cases period s <;> rw [h]
  · exact answers_raise (by rintro _ ⟨⟩)
  · exact .clockExists period rfl hc
  · exact .constructsClock period hpos hc

theorem execClkSubscribe_answers (k : EventKind) (l : Callback) (s : State) :
    Answers s (.clkSubscribe k l) (execClkSubscribe k l s) := by
  cases l with
  | admitted l => exact .subscribes k l
  | reentrant name => exact .refuses _

theorem execClkTick_answers (s : State) : Answers s .clkTick (execClkTick s) := by
  unfold execClkTick
  split
  · exact .ticksClock rfl
  · exact .answers .notEnabled rfl

theorem execBusRegister_answers (d : DeviceRef) (s : State) : Answers s (.busRegister d) (execBusRegister d s) := by
  obtain ⟨hd, h⟩ | ⟨x, hx, ⟨-, h⟩ | ⟨-, e, -, h⟩ | ⟨hok, hfree, h⟩⟩ := execBusRegister_cases d s <;> rw [h]
  · exact .noDevice d rfl hd
  · exact .refuses _
  · exact answers_raise (by rintro _ ⟨⟩)
  · exact .registers d x rfl hx hok hfree

theorem execRamRead_answers (n addr : Nat) (s : State) : Answers s (.ramRead n addr) (execRamRead n addr s) := by
  unfold execRamRead
  exact answers_withRam rfl fun _ _ _ => Performs.answers _ rfl

theorem execRamWrite_answers (n addr : Nat) (v : Byte) (s : State) :
    Answers s (.ramWrite n addr v) (execRamWrite n addr v s) := by
  unfold execRamWrite
  exact answers_withRam rfl fun d hd hj => Performs.writesRam n d _ v hd hj

theorem execRomRead_answers (n addr : Nat) (s : State) : Answers s (.romRead n addr) (execRomRead n addr s) := by
  unfold execRomRead
  exact answers_withRom rfl fun _ => Performs.answers _ rfl

theorem execRomWrite_answers (n addr : Nat) (v : Byte) (s : State) :
    Answers s (.romWrite n addr v) (execRomWrite n addr v s) := by
  unfold execRomWrite
  exact answers_withRom rfl fun _ => Performs.answers _ rfl

theorem execPpiRd0_answers (s : State) : Answers s .ppiRd0 (execPpiRd0 s) := by
  unfold execPpiRd0
  split
  · exact .answers _ rfl
  · exact .draws _

theorem execPpiWr3_answers (v : Byte) (s : State) : Answers s (.ppiWr3 v) (execPpiWr3 v s) := by
  unfold execPpiWr3
  split
  · exact .answers _ rfl
  · exact answers_raise (by rintro _ ⟨⟩)

/-- What an operation that is performed by itself answers: one case per row of spec/opcode_table.json. -/
theorem exec_answers_of_not_routed {i : Instr} (hi : i.isRouted = false) (s : State) : Answers s i (exec i s) := by
  cases i with
  | pitCwSc3 am m b => exact answers_raise (by rintro _ ⟨⟩)
  | pitCwLatch c m b => exact answers_writeModeWord fun hp => .latchCommand m b rfl hp
  | pitCwSetLsb c m b => exact answers_writeModeWord fun hp => .modeWord 1 m b (beq_self_eq_true c) hp
  | pitCwSetMsb c m b => exact answers_writeModeWord fun hp => .modeWord 2 m b (beq_self_eq_true c) hp
  | pitCwSetLsbMsb c m b => exact answers_writeModeWord fun hp => .modeWord 3 m b (beq_self_eq_true c) hp
  | pitWrDataAm0 c v => exact answers_raise (by rintro _ ⟨⟩)
  | pitWrDataLsb c v => exact .channel c _ .ok rfl (.singleByte _ (beq_self_eq_true c))
  | pitWrDataMsb c v => exact .channel c _ .ok rfl (.singleByte _ (beq_self_eq_true c))
  | pitWrDataLsbMsb c v => exact execPitWrDataLsbMsb_answers c v s
  | pitRdLatched c => exact .channel c _ (.byte _) rfl (.latchedRead rfl)
  | pitRdLsb c => exact .answers (.byte _) rfl
  | pitRdMsb c => exact .answers (.byte _) rfl
  | pitRdLsbMsb c => exact .channel c _ (.byte _) rfl (.pairRead rfl)
  | pitRdCw => exact .undefined _
  | pitBadOffset acc => cases hi
  | pitTick => exact .runsHandler rfl
  | pitSetGate c level => exact .channel c _ .ok rfl (.gate level rfl)
  | pitConstruct => exact execPitConstruct_answers s
  | clkConstruct period => exact execClkConstruct_answers period s
  | clkSubscribe k l => exact execClkSubscribe_answers k l s
  | clkStart => exact .setsRunning true
  | clkStop => exact .setsRunning false
  | clkTick => exact execClkTick_answers s
  | clkTotalTicks => exact .answers (.count _) rfl
  | busRegister d => exact execBusRegister_answers d s
  | busRead addr => cases hi
  | busWrite addr v => cases hi
  | ramConstruct base size => exact .constructsRam base size
  | ramRead n addr => exact execRamRead_answers n addr s
  | ramWrite n addr v => exact execRamWrite_answers n addr v s
  | romConstruct base bytes => exact .constructsRom base bytes
  | romRead n addr => exact execRomRead_answers n addr s
  | romWrite n addr v => exact execRomWrite_answers n addr v s
  | ppiRd0 => exact execPpiRd0_answers s
  | ppiWr0 v => exact .undefined _
  | ppiRd1 => exact .undefined _
  | ppiWr1 v => exact .latches v
  | ppiRd2 => exact .draws _
  | ppiWr2 v => exact .undefined _
  | ppiRd3 => exact .answers (.byte _) rfl
  | ppiWr3 v => exact execPpiWr3_answers v s
  | ppiBadOffset acc => cases hi

/-! ## The ports and the bus perform the decoded operation -/

theorem decodeCtx_am (s : State) (c : Chan) : s.decodeCtx.am c = (s.channel c).am := by cases c <;> rfl

theorem pitModeWrite_eq (v : Byte) (s : State) : pitModeWrite v s = exec (decodeModeWord v) s := by
  unfold pitModeWrite decodeModeWord
  cases Chan.ofBits (scField v) with
  | none => rfl
  | some c => cases AccessMode.ofBits (amField v) <;> rfl

theorem pitDataWrite_eq (c : Chan) (v : Byte) (s : State) :
    pitDataWrite c v s = exec (decodeDataWrite (s.decodeCtx.am c) c v) s := by
  rw [decodeCtx_am, pitDataWrite]
  cases (s.channel c).am <;> rfl

theorem pitDataRead_eq (c : Chan) (s : State) :
    pitDataRead c s = exec (decodeDataRead (s.decodeCtx.am c) c) s := by
  rw [decodeCtx_am, pitDataRead]
  cases (s.channel c).am <;> rfl

/-- Inside the four ports a direct call is the decoded transaction (42_pit_control.md R151; 30_encoding.md R88). -/
theorem pitAccess_of_inPorts {acc : Access} {s : State} (h : inPorts s.params.pitBase acc.addr = true) :
    pitAccess acc s = exec (decodePtw s.decodeCtx (accessWord s.params.pitBase acc)) s := by
  unfold pitAccess
  rw [if_pos h]
  cases acc with
  | read addr =>
    simp only [Access.addr, accessWord, decodePtw, pField_portWord, wField_portWord]
    cases Chan.ofBits (BitVec.ofNat 2 (addr - s.params.pitBase)) with
    | none => rfl
    | some c => exact pitDataRead_eq c s
  | write addr v =>
    simp only [Access.addr, accessWord, decodePtw, pField_portWord, wField_portWord, dField_portWord]
    cases Chan.ofBits (BitVec.ofNat 2 (addr - s.params.pitBase)) with
    | none => exact pitModeWrite_eq v s
    | some c => exact pitDataWrite_eq c v s

/-- Inside the four ports a direct call is the decoded transaction (45_peripheral_interface.md R220; 30_encoding.md R94). -/
theorem ppiAccess_of_inPorts {acc : Access} {s : State} (h : inPorts s.params.ppiBase acc.addr = true) :
    ppiAccess acc s = exec (decodePpw (accessWord s.params.ppiBase acc)) s := by
  have hoff : acc.addr - s.params.ppiBase < 4 := by
    simp only [inPorts, Bool.and_eq_true, decide_eq_true_eq] at h
    omega
  unfold ppiAccess
  rw [if_pos h]
  cases acc with
  | read addr =>
    simp only [Access.addr, accessWord, decodePpw, pField_portWord, wField_portWord] at hoff ⊢
    interval_cases addr - s.params.ppiBase <;> rfl
  | write addr v =>
    simp only [Access.addr, accessWord, decodePpw, pField_portWord, wField_portWord, dField_portWord] at hoff ⊢
    interval_cases addr - s.params.ppiBase <;> rfl

/-- A direct call of the PIT does what the decoded operation does; outside the ports that is the call itself. -/
theorem pitAccess_eq (acc : Access) (s : State) : pitAccess acc s = exec (decodePitDirect s.decodeCtx acc) s := by
  unfold decodePitDirect
  split
  case isTrue h => exact pitAccess_of_inPorts h
  case isFalse => rfl

theorem ppiAccess_eq (acc : Access) (s : State) : ppiAccess acc s = exec (decodePpiDirect s.decodeCtx acc) s := by
  unfold decodePpiDirect
  split
  case isTrue h => exact ppiAccess_of_inPorts h
  case isFalse => rfl

theorem deviceAccess_eq (d : DeviceRef) (acc : Access) (s : State) : deviceAccess d acc s = exec (s.deviceOp d acc) s := by
  cases d with
  | ram n => cases acc <;> rfl
  | rom n => cases acc <;> rfl
  | pit => exact pitAccess_eq acc s
  | ppi => exact ppiAccess_eq acc s

/-! ## What an operation performs -/

theorem performed_of_not_routed {i : Instr} (hi : i.isRouted = false) (s : State) : s.performed i = i := by
  unfold State.performed
  split
  case h_5 => rfl
  all_goals cases hi

theorem performed_busRead_of_some {s : State} {addr : Nat} {e : BusEntry} (h : lookup s.bus addr = some e) :
    s.performed (.busRead addr) = s.deviceOp e.device (.read addr) := by
  simp only [State.performed, h]

theorem performed_busRead_of_none {s : State} {addr : Nat} (h : lookup s.bus addr = none) :
    s.performed (.busRead addr) = .busRead addr := by
  simp only [State.performed, h]

theorem performed_busWrite_of_some {s : State} {addr : Nat} {v : Byte} {e : BusEntry} (h : lookup s.bus addr = some e) :
    s.performed (.busWrite addr v) = s.deviceOp e.device (.write addr v) := by
  simp only [State.performed, h]

theorem performed_busWrite_of_none {s : State} {addr : Nat} {v : Byte} (h : lookup s.bus addr = none) :
    s.performed (.busWrite addr v) = .busWrite addr v := by
  simp only [State.performed, h]

theorem exec_busRead_of_some {s : State} {addr : Nat} {e : BusEntry} (h : lookup s.bus addr = some e) :
    exec (.busRead addr) s = deviceAccess e.device (.read addr) s := by
  simp only [exec_busRead, execBusRead, h]

theorem exec_busRead_of_none {s : State} {addr : Nat} (h : lookup s.bus addr = none) :
    exec (.busRead addr) s = .next (s.returning (.byte 0)) := by
  simp only [exec_busRead, execBusRead, h]

theorem exec_busWrite_of_some {s : State} {addr : Nat} {v : Byte} {e : BusEntry} (h : lookup s.bus addr = some e) :
    exec (.busWrite addr v) s = deviceAccess e.device (.write addr v) s := by
  simp only [exec_busWrite, execBusWrite, h]

theorem exec_busWrite_of_none {s : State} {addr : Nat} {v : Byte} (h : lookup s.bus addr = none) :
    exec (.busWrite addr v) s = .next (s.returning .ok) := by
  simp only [exec_busWrite, execBusWrite, h]

/-- Settles O8: a bus access is the access of the owner that the lookup finds, and an access of a device is the decoded
operation; every other operation is performed by itself. -/
theorem busDeliversTheDecodedOperation : Obligations.BusDeliversTheDecodedOperation := by
  intro i s
  cases hi : i.isRouted with
  | false => rw [performed_of_not_routed hi]
  | true =>
    cases i with
    | busRead addr =>
      cases hl : lookup s.bus addr with
      | none => rw [performed_busRead_of_none hl]
      | some e => rw [performed_busRead_of_some hl, exec_busRead_of_some hl, deviceAccess_eq]
    | busWrite addr v =>
      cases hl : lookup s.bus addr with
      | none => rw [performed_busWrite_of_none hl]
      | some e => rw [performed_busWrite_of_some hl, exec_busWrite_of_some hl, deviceAccess_eq]
    | pitBadOffset acc => exact pitAccess_eq acc s
    | ppiBadOffset acc => exact ppiAccess_eq acc s
    | _ => cases hi

/-! ## Every answer of every operation -/

theorem pitAccess_answers (acc : Access) (s : State) : Answers s (decodePitDirect s.decodeCtx acc) (pitAccess acc s) := by
  cases h : inPorts s.params.pitBase acc.addr with
  | true =>
    have hdec : decodePitDirect s.decodeCtx acc = decodePtw s.decodeCtx (accessWord s.params.pitBase acc) := if_pos h
    rw [hdec, pitAccess_of_inPorts h]
    exact exec_answers_of_not_routed (decodePtw_row _ _).left s
  | false =>
    have hdec : decodePitDirect s.decodeCtx acc = .pitBadOffset acc := if_neg (by simp [State.decodeCtx, h])
    have hacc : pitAccess acc s = raise (.addressRange acc.addr) s := by simp [pitAccess, h]
    rw [hdec, hacc]
    exact answers_raise fun _ he => by cases he; exact .pit acc rfl rfl h

theorem ppiAccess_answers (acc : Access) (s : State) : Answers s (decodePpiDirect s.decodeCtx acc) (ppiAccess acc s) := by
  cases h : inPorts s.params.ppiBase acc.addr with
  | true =>
    have hdec : decodePpiDirect s.decodeCtx acc = decodePpw (accessWord s.params.ppiBase acc) := if_pos h
    rw [hdec, ppiAccess_of_inPorts h]
    exact exec_answers_of_not_routed (decodePpw_row _).left s
  | false =>
    have hdec : decodePpiDirect s.decodeCtx acc = .ppiBadOffset acc := if_neg (by simp [State.decodeCtx, h])
    have hacc : ppiAccess acc s = raise (.addressRange acc.addr) s := by simp [ppiAccess, h]
    rw [hdec, hacc]
    exact answers_raise fun _ he => by cases he; exact .ppi acc rfl rfl h

theorem deviceAccess_answers (d : DeviceRef) (acc : Access) (s : State) :
    Answers s (s.deviceOp d acc) (deviceAccess d acc s) := by
  cases d with
  | ram n => cases acc <;> exact exec_answers_of_not_routed rfl s
  | rom n => cases acc <;> exact exec_answers_of_not_routed rfl s
  | pit => exact pitAccess_answers acc s
  | ppi => exact ppiAccess_answers acc s

/-- Every operation answers as the operation it performs may; none answers a fault. -/
theorem exec_answers (i : Instr) (s : State) : Answers s (s.performed i) (exec i s) := by
  cases hi : i.isRouted with
  | false =>
    rw [performed_of_not_routed hi]
    exact exec_answers_of_not_routed hi s
  | true =>
    cases i with
    | busRead addr =>
      cases hl : lookup s.bus addr with
      | none => rw [exec_busRead_of_none hl]; exact .answers _ rfl
      | some e =>
        rw [performed_busRead_of_some hl, exec_busRead_of_some hl]
        exact deviceAccess_answers e.device _ s
    | busWrite addr v =>
      cases hl : lookup s.bus addr with
      | none => rw [exec_busWrite_of_none hl]; exact .answers _ rfl
      | some e =>
        rw [performed_busWrite_of_some hl, exec_busWrite_of_some hl]
        exact deviceAccess_answers e.device _ s
    | pitBadOffset acc => exact pitAccess_answers acc s
    | ppiBadOffset acc => exact ppiAccess_answers acc s
    | _ => cases hi

theorem performs_of_exec {i : Instr} {s t : State} (h : exec i s = .next t) : Performs s (s.performed i) t := by
  have ha := exec_answers i s
  rwa [h] at ha

/-- An operation performs itself, or a port row, or the access of a registered device inside its range. -/
theorem performed_cases (i : Instr) (s : State) :
    s.performed i = i ∨ (s.performed i).isPortRow = true ∨
    ∃ e ∈ s.bus, ∃ acc : Access, inRange e.base e.size acc.addr = true ∧ s.performed i = s.deviceOp e.device acc := by
  cases hi : i.isRouted with
  | false => exact .inl (performed_of_not_routed hi s)
  | true =>
    cases i with
    | busRead addr =>
      cases hl : lookup s.bus addr with
      | none => exact .inl (performed_busRead_of_none hl)
      | some e => exact .inr (.inr ⟨e, (lookup_some hl).left, .read addr, (lookup_some hl).right, performed_busRead_of_some hl⟩)
    | busWrite addr v =>
      cases hl : lookup s.bus addr with
      | none => exact .inl (performed_busWrite_of_none hl)
      | some e =>
        exact .inr (.inr ⟨e, (lookup_some hl).left, .write addr v, (lookup_some hl).right, performed_busWrite_of_some hl⟩)
    | pitBadOffset acc => exact .inr (.inl (decodePitDirect_isPortRow _ acc))
    | ppiBadOffset acc => exact .inr (.inl (decodePpiDirect_isPortRow _ acc))
    | _ => cases hi

end Sys2Proof.Machine
end

section

/-! # Statements over all operations: proofs from `Performs` -/

namespace Sys2Proof.Machine

/-! ## The clock's fields after a subscription and a tick -/

@[simp] theorem subscribe_tickPeriod (k : Clock) (kind : EventKind) (l : Listener) :
    (k.subscribe kind l).tickPeriod = k.tickPeriod := by cases kind <;> rfl

@[simp] theorem subscribe_phaseCounter (k : Clock) (kind : EventKind) (l : Listener) :
    (k.subscribe kind l).phaseCounter = k.phaseCounter := by cases kind <;> rfl

@[simp] theorem subscribe_totalTicks (k : Clock) (kind : EventKind) (l : Listener) :
    (k.subscribe kind l).totalTicks = k.totalTicks := by cases kind <;> rfl

@[simp] theorem advance_phaseCounter (k : Clock) : k.advance.phaseCounter = nextPhase k.phaseCounter := rfl

@[simp] theorem advance_totalTicks (k : Clock) : k.advance.totalTicks = k.totalTicks + 1 := rfl

/-! ## What an operation leaves unchanged, field by field -/

section
variable {s t : State} {i : Instr}

theorem Performs.params_eq (h : Performs s i t) : t.params = s.params := by
  cases h with
  | undefined u => simp
  | refuses f => simp
  | ticksClock hi => simp
  | _ => rfl

theorem Performs.pending_eq (h : Performs s i t) : t.pending = s.pending := by
  cases h with
  | undefined u => simp
  | refuses f => simp
  | ticksClock hi => simp
  | _ => rfl

/-- An operation completes and keeps `faults`, or it ends in one of the three ways of 60_exceptions.md R246 to R248. -/
theorem Performs.outcome (h : Performs s i t) :
    (t.faults = s.faults ∧ t.result.completes = true) ∨
    (∃ e, t = s.returning (.error e) ∧ ∀ addr, e = .addressRange addr → Misses s i addr) ∨
    (∃ u, t = (s.record (.undefined u)).returning (.undefined u)) ∨
    (∃ f, t = (s.record (.refused f)).returning (.refused f)) := by
  cases h with
  | answers r hr => exact .inl ⟨rfl, hr⟩
  | raises e hmiss => exact .inr (.inl ⟨e, rfl, hmiss⟩)
  | undefined u => exact .inr (.inr (.inl ⟨u, rfl⟩))
  | refuses f => exact .inr (.inr (.inr ⟨f, rfl⟩))
  | channel c y r hr hstep => exact .inl ⟨rfl, hr⟩
  | ticksClock hi => exact .inl ⟨by simp, rfl⟩
  | _ => exact .inl ⟨rfl, rfl⟩

theorem Performs.result_ne_idle (h : Performs s i t) : t.result ≠ .idle := by
  obtain ⟨-, hr⟩ | ⟨e, rfl, -⟩ | ⟨u, rfl⟩ | ⟨f, rfl⟩ := h.outcome
  · rintro hidle
    rw [hidle] at hr
    cases hr
  all_goals simp

/-- The bus is kept, or BUS_REGISTER has appended an admitted entry that overlaps none (41_bus.md R122, R130). -/
theorem Performs.bus_eq (h : Performs s i t) :
    t.bus = s.bus ∨ ∃ d x, i = .busRegister d ∧ s.deviceEntry d = some x ∧ x.configOk = true ∧
      s.bus.find? (overlaps x) = none ∧ t.bus = s.bus ++ [x] := by
  cases h with
  | registers d x hi hx hok hfree => exact .inr ⟨d, x, hi, hx, hok, hfree, rfl⟩
  | undefined u => exact .inl (by simp)
  | refuses f => exact .inl (by simp)
  | ticksClock hi => exact .inl (by simp)
  | _ => exact .inl rfl

/-- A constructed ROM is never set again (41_bus.md R134, decision D17). -/
theorem Performs.roms_getElem? (h : Performs s i t) {n : Nat} {d : Rom} (hd : s.roms[n]? = some d) :
    t.roms[n]? = some d := by
  cases h with
  | constructsRom base bytes =>
    obtain ⟨hlt, -⟩ := List.getElem?_eq_some_iff.mp hd
    exact (List.getElem?_append_left hlt).trans hd
  | undefined u => simpa using hd
  | refuses f => simpa using hd
  | ticksClock hi => simpa using hd
  | _ => exact hd

/-- A constructed RAM keeps its base and size; its memory is kept, or takes one byte at an offset below the size. -/
theorem Performs.rams_getElem? (h : Performs s i t) {n : Nat} {d : Ram} (hd : s.rams[n]? = some d) :
    ∃ m, t.rams[n]? = some { d with mem := m } := by
  cases h with
  | constructsRam base size =>
    obtain ⟨hlt, -⟩ := List.getElem?_eq_some_iff.mp hd
    exact ⟨d.mem, (List.getElem?_append_left hlt).trans hd⟩
  | writesRam n' d' j v hd' hj =>
    by_cases hn : n' = n
    · subst hn
      obtain ⟨hlt, -⟩ := List.getElem?_eq_some_iff.mp hd
      obtain rfl := Option.some.inj (hd'.symm.trans hd)
      exact ⟨_, List.getElem?_set_self hlt⟩
    · exact ⟨d.mem, (List.getElem?_set_ne hn).trans hd⟩
  | undefined u => exact ⟨d.mem, by simpa using hd⟩
  | refuses f => exact ⟨d.mem, by simpa using hd⟩
  | ticksClock hi => exact ⟨d.mem, by simpa using hd⟩
  | _ => exact ⟨d.mem, hd⟩

theorem Performs.pitExists (h : Performs s i t) (hp : s.pitExists = true) : t.pitExists = true := by
  cases h with
  | constructsPit hi hnew => rfl
  | undefined u => simpa using hp
  | refuses f => simpa using hp
  | ticksClock hi => simpa using hp
  | _ => exact hp

/-- The period and the two counters of the clock are kept, or the clock ticks, or it is constructed. -/
theorem Performs.clock_cases (h : Performs s i t) :
    (t.clockExists = s.clockExists ∧ t.clock.tickPeriod = s.clock.tickPeriod ∧
      t.clock.phaseCounter = s.clock.phaseCounter ∧ t.clock.totalTicks = s.clock.totalTicks) ∨
    (t.clockExists = s.clockExists ∧ t.clock = s.clock.advance) ∨
    (s.clockExists = false ∧ ∃ period, periodPositive period = true ∧ t.clock = Clock.constructed period) := by
  cases h with
  | ticksClock hi => exact .inr (.inl (by simp))
  | constructsClock period hpos hnew => exact .inr (.inr ⟨hnew, period, hpos, rfl⟩)
  | _ => exact .inl (by simp)

/-- A device that exists keeps its base and size (41_bus.md R121, R130). -/
theorem Performs.deviceEntry_eq_some (h : Performs s i t) {d : DeviceRef} {e : BusEntry}
    (hd : s.deviceEntry d = some e) : t.deviceEntry d = some e := by
  cases d with
  | ram n =>
    obtain ⟨r, hr, rfl⟩ := Option.map_eq_some_iff.mp hd
    obtain ⟨m, hm⟩ := h.rams_getElem? hr
    exact Option.map_eq_some_iff.mpr ⟨_, hm, rfl⟩
  | rom n =>
    obtain ⟨r, hr, rfl⟩ := Option.map_eq_some_iff.mp hd
    exact Option.map_eq_some_iff.mpr ⟨r, h.roms_getElem? hr, rfl⟩
  | pit =>
    simp only [State.deviceEntry, Option.ite_none_right_eq_some] at hd ⊢
    rw [h.params_eq]
    exact ⟨h.pitExists hd.left, hd.right⟩
  | ppi =>
    simp only [State.deviceEntry] at hd ⊢
    rwa [h.params_eq]

end

/-! ## Errors, faults and refusals (60_exceptions.md section 2) -/

/-- Settles O9: of the outcomes of an operation only the raised error has an error as its result. -/
theorem errorsWriteNothing : Obligations.ErrorsWriteNothing := by
  intro i s t e hexec herr
  obtain ⟨-, hr⟩ | ⟨e', rfl, -⟩ | ⟨u, rfl⟩ | ⟨f, rfl⟩ := (performs_of_exec hexec).outcome
  · rw [herr] at hr
    cases hr
  · cases herr
    rfl
  · cases herr
  · cases herr

/-- Recording writes `faults` alone. -/
theorem record_returning_restore (s : State) (f : FaultRecord) (r : Result) :
    { (s.record f).returning r with faults := s.faults } = s.returning r := by
  rw [record_returning_eq]
  rfl

/-- Settles O10: an operation keeps `faults`, or it ends as Undefined or Refused with that one record added. -/
theorem faultRecordsAreKept : Obligations.FaultRecordsAreKept := by
  intro i s t hexec
  obtain ⟨hfaults, hr⟩ | ⟨e, rfl, -⟩ | ⟨u, rfl⟩ | ⟨f, rfl⟩ := (performs_of_exec hexec).outcome
  · rw [hfaults]
    refine ⟨fun _ => id, fun _ => .inl, fun u hu => ?_, fun f hf => ?_⟩
    · rw [hu] at hr
      cases hr
    · rw [hf] at hr
      cases hr
  · exact ⟨fun _ => id, fun _ => .inl, by rintro u ⟨⟩, by rintro f ⟨⟩⟩
  · refine ⟨fun r hr => mem_record.mpr (.inr hr), fun r hr => ?_, ?_, by rintro f ⟨⟩⟩
    · obtain rfl | hr := mem_record.mp hr
      · exact .inr (.inl ⟨u, rfl, rfl⟩)
      · exact .inl hr
    · rintro _ ⟨⟩
      exact ⟨mem_record.mpr (.inl rfl), record_returning_restore s _ _⟩
  · refine ⟨fun r hr => mem_record.mpr (.inr hr), fun r hr => ?_, by rintro u ⟨⟩, ?_⟩
    · obtain rfl | hr := mem_record.mp hr
      · exact .inr (.inr ⟨f, rfl, rfl⟩)
      · exact .inl hr
    · rintro _ ⟨⟩
      exact ⟨mem_record.mpr (.inl rfl), record_returning_restore s _ _⟩

/-! ## Completion (00_scope.md section 5) -/

/-- No port row is declined: the PIT and the PeripheralInterface answer every access. -/
theorem not_declines_of_isPortRow {s : State} {i : Instr} (hi : i.isPortRow = true) : ¬ Declines s i := by
  have hmem := memoryAccess?_of_isPortRow hi
  rintro (⟨d, addr, h, -⟩ | ⟨d, rfl, -⟩ | ⟨period, rfl, -⟩ | ⟨rfl, -⟩)
  · cases hmem.symm.trans h
  all_goals cases hi

/-- An access of a memory device is declined only where the device does not exist. -/
theorem deviceEntry_eq_none_of_declines {s : State} {i : Instr} {d : DeviceRef} {addr : Nat} (h : Declines s i)
    (hi : i.memoryAccess? = some (d, addr)) : s.deviceEntry d = none := by
  obtain ⟨d', _, hi', hd'⟩ | ⟨_, rfl, -⟩ | ⟨period, rfl, -⟩ | ⟨rfl, -⟩ := h
  · cases hi.symm.trans hi'
    exact hd'
  all_goals cases hi

/-- What an access of a device performs: a port row, or an access of the memory device at the same address. -/
theorem deviceOp_cases (s : State) (d : DeviceRef) (acc : Access) :
    (s.deviceOp d acc).isPortRow = true ∨ (s.deviceOp d acc).memoryAccess? = some (d, acc.addr) := by
  cases d with
  | ram n => cases acc <;> exact .inr rfl
  | rom n => cases acc <;> exact .inr rfl
  | pit => exact .inl (decodePitDirect_isPortRow _ acc)
  | ppi => exact .inl (decodePpiDirect_isPortRow _ acc)

/-- An operation that is not declined answers a next state. -/
theorem exec_next_of_not_declines {i : Instr} {s : State} (h : ¬ Declines s (s.performed i)) : ∃ t, exec i s = .next t := by
  have ha := exec_answers i s
  cases hexec : exec i s with
  | next t => exact ⟨t, rfl⟩
  | fault f => rw [hexec] at ha; exact ha.elim
  | refused r => rw [hexec] at ha; exact absurd ha h

/-- Settles O11: a bus access and a direct call are of a device that exists; every other operation is declined only where
one of the premises fails. -/
theorem everyOperationCompletes : Obligations.EveryOperationCompletes := by
  intro i s hbus hreg hramRead hramWrite hromRead hromWrite hclk hpit
  have hnot : ¬ Declines s (s.performed i) := by
    intro hdec
    obtain heq | hport | ⟨e, he, acc, -, heq⟩ := performed_cases i s
    · rw [heq] at hdec
      obtain ⟨d, addr, hi, hd⟩ | ⟨d, rfl, hd⟩ | ⟨period, rfl, h⟩ | ⟨rfl, h⟩ := hdec
      · obtain ⟨n, rfl, hrow⟩ | ⟨n, rfl, hrow⟩ := memoryAccess?_cases hi <;>
            rw [State.deviceEntry, Option.map_eq_none_iff] at hd
        · have hlt : n < s.rams.length := hrow.elim (hramRead n addr) fun ⟨v, hv⟩ => hramWrite n addr v hv
          exact absurd (List.getElem?_eq_none_iff.mp hd) (Nat.not_le.mpr hlt)
        · have hlt : n < s.roms.length := hrow.elim (hromRead n addr) fun ⟨v, hv⟩ => hromWrite n addr v hv
          exact absurd (List.getElem?_eq_none_iff.mp hd) (Nat.not_le.mpr hlt)
      · simpa [hd] using hreg d rfl
      · simp [hclk period rfl] at h
      · simp [hpit rfl] at h
    · exact not_declines_of_isPortRow hport hdec
    · rw [heq] at hdec
      obtain hport | hmem := deviceOp_cases s e.device acc
      · exact not_declines_of_isPortRow hport hdec
      · cases (hbus e he).symm.trans (deviceEntry_eq_none_of_declines hdec hmem)
  obtain ⟨t, ht⟩ := exec_next_of_not_declines hnot
  have hperf := performs_of_exec ht
  exact ⟨t, ht, hperf.params_eq, hperf.pending_eq, hperf.result_ne_idle⟩

/-! ## Constructed units and registered devices -/

/-- Settles O18: what an operation writes is a new device, one byte of a RAM, the clock's counters and flags, or a unit that
did not exist; a second construction is refused. -/
theorem constructedUnitsAreSetOnce : Obligations.ConstructedUnitsAreSetOnce := by
  constructor
  · intro i s t hexec
    have h := performs_of_exec hexec
    refine ⟨fun n d => h.roms_getElem?, fun n d => h.rams_getElem?, fun hc => ?_, h.pitExists⟩
    obtain ⟨hex, hper, -, htot⟩ | ⟨hex, hclk⟩ | ⟨hnew, -⟩ := h.clock_cases
    · exact ⟨hex.trans hc, hper, htot.ge⟩
    · rw [hclk]
      exact ⟨hex.trans hc, rfl, Nat.le_succ _⟩
    · cases hc.symm.trans hnew
  · intro s period r
    constructor
    · intro hc hnames hpos
      have hp := (periodPositive_iff hnames).mpr hpos
      obtain ⟨hneg, -⟩ | ⟨-, -, h⟩ | ⟨-, hnew, -⟩ := execClkConstruct_cases period s
      · cases hp.symm.trans hneg
      · exact h
      · cases hc.symm.trans hnew
    · intro hp
      obtain ⟨-, h⟩ | ⟨hnew, -⟩ := execPitConstruct_cases s
      · exact h
      · cases hp.symm.trans hnew

/-- Only BUS_REGISTER performs BUS_REGISTER. -/
theorem eq_of_performed_eq_busRegister {i : Instr} {s : State} {d : DeviceRef} (h : s.performed i = .busRegister d) :
    i = .busRegister d := by
  obtain heq | hport | ⟨e, -, acc, -, heq⟩ := performed_cases i s
  · exact heq.symm.trans h
  · rw [h] at hport
    cases hport
  · have hop := deviceOp_cases s e.device acc
    rw [← heq, h] at hop
    rcases hop with ⟨⟨⟩⟩ | ⟨⟨⟩⟩

/-- Settles O22: `Performs.bus_eq` for the operation performed, and BUS_REGISTER is performed by itself alone. -/
theorem registeredDevicesStay : Obligations.RegisteredDevicesStay := by
  intro i s t hexec
  obtain hbus | ⟨d, x, hi, hx, -, -, hbus⟩ := (performs_of_exec hexec).bus_eq
  · exact .inl hbus
  · exact .inr ⟨d, x, eq_of_performed_eq_busRegister hi, hx, hbus⟩

/-! ## Bus accesses stay in range (41_bus.md section 1) -/

/-- The PIT's own range is its four ports (42_pit_control.md R151). -/
theorem inPorts_of_inRange {base addr : Nat} (h : inRange base 4 addr = true) : inPorts base addr = true := by
  rw [inRange_iff] at h
  simp only [inPorts, Bool.and_eq_true, decide_eq_true_eq]
  omega

/-- Inside the ports a direct call is decoded to a row that is performed by itself. -/
theorem decodePitDirect_not_routed {ctx : DecodeCtx} {acc : Access} (h : inPorts ctx.pitBase acc.addr = true) :
    (decodePitDirect ctx acc).isRouted = false := by
  rw [decodePitDirect, if_pos h]
  exact (decodePtw_row _ _).left

theorem decodePpiDirect_not_routed {ctx : DecodeCtx} {acc : Access} (h : inPorts ctx.ppiBase acc.addr = true) :
    (decodePpiDirect ctx acc).isRouted = false := by
  rw [decodePpiDirect, if_pos h]
  exact (decodePpw_row _).left

/-- A port row that is performed by itself misses no address. -/
theorem not_misses_of_port {s : State} {i : Instr} {addr : Nat} (hport : i.isPortRow = true) (hi : i.isRouted = false) :
    ¬ Misses s i addr := by
  have hmem := memoryAccess?_of_isPortRow hport
  rintro (⟨d, e, h, -, -⟩ | ⟨acc, rfl, -, -⟩ | ⟨acc, rfl, -, -⟩)
  · cases hmem.symm.trans h
  all_goals cases hi

/-- An access of a memory device misses only an address outside the device's range (41_bus.md R137). -/
theorem not_inRange_of_misses {s : State} {i : Instr} {d : DeviceRef} {e : BusEntry} {a addr : Nat} (h : Misses s i addr)
    (hi : i.memoryAccess? = some (d, a)) (he : s.deviceEntry d = some e) : inRange e.base e.size a = false := by
  obtain ⟨d', e', hi', he', hout⟩ | ⟨acc, rfl, -, -⟩ | ⟨acc, rfl, -, -⟩ := h
  · cases hi.symm.trans hi'
    cases he.symm.trans he'
    exact hout
  all_goals cases hi

/-- An access inside the range of the device it is delivered to misses no address. -/
theorem not_misses_deviceOp {s : State} {d : DeviceRef} {e : BusEntry} (he : s.deviceEntry d = some e) {acc : Access}
    (hin : inRange e.base e.size acc.addr = true) (addr : Nat) : ¬ Misses s (s.deviceOp d acc) addr := by
  have hmemory (hmem : (s.deviceOp d acc).memoryAccess? = some (d, acc.addr)) : ¬ Misses s (s.deviceOp d acc) addr :=
    fun h => by cases hin.symm.trans (not_inRange_of_misses h hmem he)
  cases d with
  | ram n => exact hmemory (by cases acc <;> rfl)
  | rom n => exact hmemory (by cases acc <;> rfl)
  | pit =>
    obtain ⟨-, hsome⟩ := Option.ite_none_right_eq_some.mp he
    cases hsome
    exact not_misses_of_port (decodePitDirect_isPortRow _ acc) (decodePitDirect_not_routed (inPorts_of_inRange hin))
  | ppi =>
    cases he
    exact not_misses_of_port (decodePpiDirect_isPortRow _ acc) (decodePpiDirect_not_routed (inPorts_of_inRange hin))

/-- An operation raises AddressRangeError only for an address that the operation performed misses (60_exceptions.md R241). -/
theorem misses_of_addressRange {i : Instr} {s t : State} {a : Nat} (h : exec i s = .next t)
    (hr : t.result = .error (.addressRange a)) : Misses s (s.performed i) a := by
  obtain ⟨-, hc⟩ | ⟨e, rfl, hmiss⟩ | ⟨u, rfl⟩ | ⟨f, rfl⟩ := (performs_of_exec h).outcome
  · rw [hr] at hc
    cases hc
  · cases hr
    exact hmiss a rfl
  · cases hr
  · cases hr

/-- Settles O23: an open-bus access raises nothing, and a delivered one is inside the range of its device, which is the one
the device was registered with. -/
theorem busAccessesAreInRange : Obligations.BusAccessesAreInRange := by
  intro s t addr a v hbus
  constructor
  · intro hexec hr
    have hmiss := misses_of_addressRange hexec hr
    cases hl : lookup s.bus addr with
    | none => rw [exec_busRead_of_none hl] at hexec; cases hexec; cases hr
    | some e =>
      obtain ⟨he, hin⟩ := lookup_some hl
      rw [performed_busRead_of_some hl] at hmiss
      exact not_misses_deviceOp (acc := .read addr) (hbus e he) hin a hmiss
  · intro hexec hr
    have hmiss := misses_of_addressRange hexec hr
    cases hl : lookup s.bus addr with
    | none => rw [exec_busWrite_of_none hl] at hexec; cases hexec; cases hr
    | some e =>
      obtain ⟨he, hin⟩ := lookup_some hl
      rw [performed_busWrite_of_some hl] at hmiss
      exact not_misses_deviceOp (acc := .write addr v) (hbus e he) hin a hmiss

/-! ## What every step keeps -/

/-- A step leaves the machine as it is, or is an operation performed with some requests pending. -/
theorem step_cases {s t : State} (h : step s = .next t) : t = s ∨ ∃ i p, exec i { s with pending := p } = .next t := by
  unfold step at h
  split at h
  · cases h
  · unfold fetch at h
    cases hp : s.pending with
    | nil =>
      cases hr : s.clock.running with
      | true =>
        simp only [hp, hr, if_true] at h
        exact .inr ⟨.clkTick, s.pending, h⟩
      | false =>
        simp only [hp, hr] at h
        cases h
        exact .inl rfl
    | cons r rest =>
      cases hd : decode s.decodeCtx r with
      | ok i =>
        simp only [hp, hd] at h
        exact .inr ⟨i, rest, h⟩
      | error e =>
        simp only [hp, hd] at h
        cases h

/-- A property that does not read `pending` and that every operation keeps is kept by every step. -/
theorem step_keeps {P : State → Prop} (hpending : ∀ s p, P s → P { s with pending := p })
    (hop : ∀ s i t, Performs s i t → P s → P t) {s t : State} (hstep : step s = .next t) (hs : P s) : P t := by
  obtain rfl | ⟨i, p, hexec⟩ := step_cases hstep
  · exact hs
  · exact hop _ _ t (performs_of_exec hexec) (hpending s p hs)

/-! ### The bus -/

theorem BusEntry.disjoint_of_not_overlaps {d e : BusEntry} (h : overlaps d e = false) : e.Disjoint d := by
  rintro addr ⟨he, hd⟩
  rw [inRange_iff] at he hd
  simp only [overlaps, Bool.and_eq_false_iff, decide_eq_false_iff_not] at h
  omega

theorem BusEntry.configOk_iff {d : BusEntry} : d.configOk = true ↔ 0 ≤ d.base ∧ 1 ≤ d.size := by
  simp [BusEntry.configOk]

theorem Performs.rangesDisjoint {s t : State} {i : Instr} (h : Performs s i t) (hs : RangesDisjoint s) : RangesDisjoint t := by
  obtain ⟨hadm, hpair⟩ := hs
  unfold RangesDisjoint
  obtain hbus | ⟨d, x, -, -, hok, hfree, hbus⟩ := h.bus_eq <;> rw [hbus]
  · exact ⟨hadm, hpair⟩
  · constructor
    · intro e he
      obtain he | rfl := List.mem_append.mp he |>.imp_right List.mem_singleton.mp
      · exact hadm e he
      · exact BusEntry.configOk_iff.mp hok
    · refine List.pairwise_append.mpr ⟨hpair, List.pairwise_singleton _ _, fun e he x' hx' => ?_⟩
      obtain rfl := List.mem_singleton.mp hx'
      exact BusEntry.disjoint_of_not_overlaps (Bool.not_eq_true _ ▸ List.find?_eq_none.mp hfree e he)

theorem Performs.busMatchesDevices {s t : State} {i : Instr} (h : Performs s i t) (hs : BusMatchesDevices s) :
    BusMatchesDevices t := by
  unfold BusMatchesDevices
  obtain hbus | ⟨d, x, -, hx, -, -, hbus⟩ := h.bus_eq <;> rw [hbus]
  · exact fun e he => h.deviceEntry_eq_some (hs e he)
  · intro e he
    obtain he | rfl := List.mem_append.mp he |>.imp_right List.mem_singleton.mp
    · exact h.deviceEntry_eq_some (hs e he)
    · have hdev := deviceEntry_device hx
      exact h.deviceEntry_eq_some (by rw [hdev, hx])

theorem deviceEntry_pending (s : State) (p : List Request) (d : DeviceRef) :
    { s with pending := p }.deviceEntry d = s.deviceEntry d := by cases d <;> rfl

/-- Settles O24: only BUS_REGISTER writes the bus, and it appends an admitted entry of an existing device that overlaps none;
no operation changes the range of a device that exists. -/
theorem busInvariantsKept : Obligations.BusInvariantsKept := by
  intro s t hstep
  constructor
  · exact step_keeps (fun _ _ => id) (fun _ _ _ h => h.rangesDisjoint) hstep
  · refine step_keeps (P := BusMatchesDevices) (fun s p hs e he => ?_) (fun _ _ _ h => h.busMatchesDevices) hstep
    exact (deviceEntry_pending s p _).trans (hs e he)

/-! ### The clock -/

theorem Performs.phaseTracksTotal {s t : State} {i : Instr} (h : Performs s i t) (hs : PhaseTracksTotal s) :
    PhaseTracksTotal t := by
  unfold PhaseTracksTotal at hs ⊢
  obtain ⟨-, -, hphase, htot⟩ | ⟨-, hclk⟩ | ⟨-, period, -, hclk⟩ := h.clock_cases
  · rw [hphase, htot, hs]
  · rw [hclk, advance_phaseCounter, advance_totalTicks, nextPhase_val, hs]
    omega
  · rw [hclk]
    rfl

theorem Performs.periodPositive {s t : State} {i : Instr} (h : Performs s i t) (hs : PeriodPositive s) : PeriodPositive t := by
  unfold PeriodPositive at hs ⊢
  obtain ⟨-, hper, -, -⟩ | ⟨-, hclk⟩ | ⟨-, period, hpos, hclk⟩ := h.clock_cases
  · rwa [hper]
  · rwa [hclk]
  · rw [hclk]
    exact fun r hr => (periodPositive_iff hr).mp hpos

/-- Settles O25: a tick advances the phase and the count together, and CLK_CONSTRUCT admits a positive period only. -/
theorem clockInvariantsKept : Obligations.ClockInvariantsKept := by
  intro s t hstep
  exact ⟨step_keeps (fun _ _ => id) (fun _ _ _ h => h.phaseTracksTotal) hstep,
    step_keeps (fun _ _ => id) (fun _ _ _ h => h.periodPositive) hstep⟩

/-! ### The memories -/

/-- A RAM in the form that `MemoriesCanonical` asks of every RAM. -/
def Ram.Canonical (d : Ram) : Prop := Memory.wf d.mem = true ∧ ∀ cell ∈ d.mem, (cell.1 : Int) < d.size

/-- A write below the size keeps the canonical form (41_bus.md R133). -/
theorem Ram.Canonical.put {d : Ram} (h : d.Canonical) {j : Nat} (hj : (j : Int) < d.size) (v : Byte) :
    Ram.Canonical { d with mem := d.mem.put j v } := by
  obtain ⟨hwf, hlt⟩ := h
  refine ⟨wf_put d.mem j v hwf, fun cell hcell => ?_⟩
  obtain heq | hmem := mem_put hcell
  · exact heq ▸ hj
  · exact hlt cell hmem

theorem Performs.memoriesCanonical {s t : State} {i : Instr} (h : Performs s i t) (hs : ∀ d ∈ s.rams, d.Canonical) :
    ∀ d ∈ t.rams, d.Canonical := by
  cases h with
  | constructsRam base size =>
    refine List.forall_mem_append.mpr ⟨hs, List.forall_mem_singleton.mpr ⟨wf_nil, ?_⟩⟩
    exact List.forall_mem_nil _
  | writesRam n d j v hd hj =>
    intro d' hd'
    obtain hmem | rfl := List.mem_or_eq_of_mem_set hd'
    · exact hs d' hmem
    · exact (hs d (List.mem_of_getElem? hd)).put hj v
  | undefined u => simpa using hs
  | refuses f => simpa using hs
  | ticksClock hi => simpa using hs
  | _ => exact hs

/-- Settles O26: a new RAM is empty, and the only other write of a memory puts one byte below the device's size. -/
theorem memoriesCanonicalKept : Obligations.MemoriesCanonicalKept := by
  intro s t hstep
  exact step_keeps (P := MemoriesCanonical) (fun _ _ => id) (fun _ _ _ h => h.memoriesCanonical) hstep

end Sys2Proof.Machine
end

section

/-! # Decoding and encoding: proofs of the obligations of 30_encoding.md -/

namespace Sys2Proof

/-- Settles O1: one case per row of the table, each by its own round trip. -/
theorem decodeOfEncodeIsIdentity : Obligations.DecodeOfEncodeIsIdentity := by
  intro ctx i h
  cases i with
  | pitCwSc3 am m b => exact Laws.RoundTrip.pitCwSc3 am m b ctx h
  | pitCwLatch c m b => exact Laws.RoundTrip.pitCwLatch c m b ctx h
  | pitCwSetLsb c m b => exact Laws.RoundTrip.pitCwSetLsb c m b ctx h
  | pitCwSetMsb c m b => exact Laws.RoundTrip.pitCwSetMsb c m b ctx h
  | pitCwSetLsbMsb c m b => exact Laws.RoundTrip.pitCwSetLsbMsb c m b ctx h
  | pitWrDataAm0 c v => exact Laws.RoundTrip.pitWrDataAm0 c v ctx h
  | pitWrDataLsb c v => exact Laws.RoundTrip.pitWrDataLsb c v ctx h
  | pitWrDataMsb c v => exact Laws.RoundTrip.pitWrDataMsb c v ctx h
  | pitWrDataLsbMsb c v => exact Laws.RoundTrip.pitWrDataLsbMsb c v ctx h
  | pitRdLatched c => exact Laws.RoundTrip.pitRdLatched c ctx h
  | pitRdLsb c => exact Laws.RoundTrip.pitRdLsb c ctx h
  | pitRdMsb c => exact Laws.RoundTrip.pitRdMsb c ctx h
  | pitRdLsbMsb c => exact Laws.RoundTrip.pitRdLsbMsb c ctx h
  | pitRdCw => exact Laws.RoundTrip.pitRdCw ctx h
  | pitBadOffset acc => exact Laws.RoundTrip.pitBadOffset acc ctx h
  | pitTick => exact Laws.RoundTrip.pitTick ctx h
  | pitSetGate c level => exact Laws.RoundTrip.pitSetGate c level ctx h
  | pitConstruct => exact Laws.RoundTrip.pitConstruct ctx h
  | clkConstruct period => exact Laws.RoundTrip.clkConstruct period ctx h
  | clkSubscribe k l => exact Laws.RoundTrip.clkSubscribe k l ctx h
  | clkStart => exact Laws.RoundTrip.clkStart ctx h
  | clkStop => exact Laws.RoundTrip.clkStop ctx h
  | clkTick => exact Laws.RoundTrip.clkTick ctx h
  | clkTotalTicks => exact Laws.RoundTrip.clkTotalTicks ctx h
  | busRegister d => exact Laws.RoundTrip.busRegister d ctx h
  | busRead addr => exact Laws.RoundTrip.busRead addr ctx h
  | busWrite addr v => exact Laws.RoundTrip.busWrite addr v ctx h
  | ramConstruct base size => exact Laws.RoundTrip.ramConstruct base size ctx h
  | ramRead n addr => exact Laws.RoundTrip.ramRead n addr ctx h
  | ramWrite n addr v => exact Laws.RoundTrip.ramWrite n addr v ctx h
  | romConstruct base bytes => exact Laws.RoundTrip.romConstruct base bytes ctx h
  | romRead n addr => exact Laws.RoundTrip.romRead n addr ctx h
  | romWrite n addr v => exact Laws.RoundTrip.romWrite n addr v ctx h
  | ppiRd0 => exact Laws.RoundTrip.ppiRd0 ctx h
  | ppiWr0 v => exact Laws.RoundTrip.ppiWr0 v ctx h
  | ppiRd1 => exact Laws.RoundTrip.ppiRd1 ctx h
  | ppiWr1 v => exact Laws.RoundTrip.ppiWr1 v ctx h
  | ppiRd2 => exact Laws.RoundTrip.ppiRd2 ctx h
  | ppiWr2 v => exact Laws.RoundTrip.ppiWr2 v ctx h
  | ppiRd3 => exact Laws.RoundTrip.ppiRd3 ctx h
  | ppiWr3 v => exact Laws.RoundTrip.ppiWr3 v ctx h
  | ppiBadOffset acc => exact Laws.RoundTrip.ppiBadOffset acc ctx h

/-! ## Words field by field -/

theorem portWord_inj {w w' : BitVec 1} {p p' : BitVec 2} {d d' : Byte} :
    portWord w p d = portWord w' p' d' ↔ w = w' ∧ p = p' ∧ d = d' := by
  constructor
  · intro h
    exact ⟨by simpa using congrArg wField h, by simpa using congrArg pField h, by simpa using congrArg dField h⟩
  · rintro ⟨rfl, rfl, rfl⟩
    rfl

theorem modeByte_inj {sc sc' am am' : BitVec 2} {m m' : BitVec 3} {b b' : BitVec 1} :
    modeByte sc am m b = modeByte sc' am' m' b' ↔ sc = sc' ∧ am = am' ∧ m = m' ∧ b = b' := by
  constructor
  · intro h
    exact ⟨by simpa using congrArg scField h, by simpa using congrArg amField h, by simpa using congrArg mField h,
      by simpa using congrArg bcdField h⟩
  · rintro ⟨rfl, rfl, rfl, rfl⟩
    rfl

/-- A mask applies to each field of a transaction word. -/
theorem portWord_and (w w' : BitVec 1) (p p' : BitVec 2) (d d' : Byte) :
    portWord w p d &&& portWord w' p' d' = portWord (w &&& w') (p &&& p') (d &&& d') := by
  unfold portWord
  rw [← BitVec.and_append, ← BitVec.and_append]

/-- A mask applies to each field of a mode word. -/
theorem modeByte_and (sc sc' am am' : BitVec 2) (m m' : BitVec 3) (b b' : BitVec 1) :
    modeByte sc am m b &&& modeByte sc' am' m' b' = modeByte (sc &&& sc') (am &&& am') (m &&& m') (b &&& b') := by
  unfold modeByte
  rw [← BitVec.and_append, ← BitVec.and_append, ← BitVec.and_append]

theorem toNat_portWord (w : BitVec 1) (p : BitVec 2) (d : Byte) :
    (portWord w p d).toNat = w.toNat * 1024 + p.toNat * 256 + d.toNat := by
  simp only [portWord, toNat_concat]
  omega

theorem zero_ne_one_bit : (0 : BitVec 1) ≠ 1 := by decide

/-- A write has W = 1 and a read W = 0. -/
theorem wBit_cases (w : BitVec 1) : w = 1 ∨ w = 0 := by
  revert w
  decide

/-- The values of a two-bit field. -/
theorem field_cases (b : BitVec 2) : b = 0 ∨ b = 1 ∨ b = 2 ∨ b = 3 := by
  revert b
  decide

/-! ## A decoded word encodes back -/

theorem encode_decodeDataWrite (am : AccessMode) (c : Chan) (v : Byte) :
    encode (decodeDataWrite am c v) = dataWriteRequest c v := by cases am <;> rfl

theorem encode_decodeDataRead (am : AccessMode) (c : Chan) : encode (decodeDataRead am c) = dataReadRequest c := by
  cases am <;> rfl

theorem encode_decodeModeWord (v : Byte) : encode (decodeModeWord v) = .ptw (portWord 1 3 v).toNat := by
  conv_rhs => rw [← modeByte_fields v, ← accessMode_bits_ofBits (amField v)]
  unfold decodeModeWord
  obtain ⟨hsc, hc⟩ | ⟨c, hsc, hc⟩ := chan_ofBits_eq (scField v) <;> rw [hc, hsc]
  · rw [accessMode_bits_ofBits]
    rfl
  · cases AccessMode.ofBits (amField v) <;> rfl

/-- A decoded PIT word encodes to the word with the data bits of a read cleared. -/
theorem encode_decodePtw (ctx : DecodeCtx) (w : BitVec 1) (p : BitVec 2) (d : Byte) :
    encode (decodePtw ctx (portWord w p d)) = .ptw (portWord w p (if w = 1 then d else 0)).toNat := by
  simp only [decodePtw, pField_portWord, wField_portWord, dField_portWord]
  obtain ⟨rfl, hc⟩ | ⟨c, rfl, hc⟩ := chan_ofBits_eq p <;> rw [hc] <;> obtain rfl | rfl := wBit_cases w
  · exact encode_decodeModeWord d
  · rw [if_neg zero_ne_one_bit, if_neg zero_ne_one_bit]
    rfl
  · exact encode_decodeDataWrite _ c d
  · exact encode_decodeDataRead _ c

theorem decodePtw_wf (ctx : DecodeCtx) (w : PortWord) : (decodePtw ctx w).wf ctx = true := by
  unfold decodePtw
  split
  · split
    · unfold decodeModeWord
      split
      · rfl
      · split <;> rfl
    · rfl
  · rename_i c _
    split
    · unfold decodeDataWrite
      split <;> rename_i h <;> exact beq_iff_eq.mpr h
    · unfold decodeDataRead
      split <;> rename_i h <;> exact beq_iff_eq.mpr h

theorem encode_decodePpw (w : BitVec 1) (p : BitVec 2) (d : Byte) :
    encode (decodePpw (portWord w p d)) = .ppw (portWord w p (if w = 1 then d else 0)).toNat := by
  simp only [decodePpw, pField_portWord, wField_portWord, dField_portWord]
  obtain rfl | rfl := wBit_cases w
  · obtain rfl | rfl | rfl | rfl := field_cases p <;> rfl
  · rw [if_neg zero_ne_one_bit, if_neg zero_ne_one_bit]
    obtain rfl | rfl | rfl | rfl := field_cases p <;> rfl

theorem decodePpw_wf (ctx : DecodeCtx) (w : PortWord) : (decodePpw w).wf ctx = true := by
  unfold decodePpw
  repeat' split
  all_goals rfl

/-- The mask 0x700 clears the data bits. -/
theorem portWord_and_0x700 (w : BitVec 1) (p : BitVec 2) (d : Byte) : portWord w p d &&& 0x700 = portWord w p 0 := by
  have hmask : (0x700 : PortWord) = portWord (BitVec.allOnes 1) (BitVec.allOnes 2) 0 := rfl
  simp only [hmask, portWord_and, BitVec.and_allOnes, BitVec.ofNat_eq_ofNat, BitVec.and_zero]

/-- The word that O2 names: the transaction word itself, or with its data bits cleared when it is a read. -/
theorem reencoded_toNat (w : BitVec 1) (p : BitVec 2) (d : Byte) :
    (portWord w p (if w = 1 then d else 0)).toNat =
      if w = 1 then (portWord w p d).toNat else (portWord w p d &&& 0x700).toNat := by
  rw [portWord_and_0x700]
  split <;> rfl

/-- Settles O2: a word is made of its three fields, and encoding the decoded operation rebuilds them. -/
theorem transactionWordsDecodeAndReencode : Obligations.TransactionWordsDecodeAndReencode := by
  intro ctx t
  obtain ⟨w, p, d, rfl⟩ : ∃ w p d, t = portWord w p d := ⟨_, _, _, (portWord_fields t).symm⟩
  have hw : (portWord w p d).extractLsb' 10 1 = w := wField_portWord w p d
  rw [hw]
  constructor
  · exact ⟨_, Laws.decode_ptw ctx w p d, decodePtw_wf ctx _, by rw [encode_decodePtw, reencoded_toNat]⟩
  · exact ⟨_, Laws.decode_ppw ctx w p d, decodePpw_wf ctx _, by rw [encode_decodePpw, reencoded_toNat]⟩

/-! ## The rows of the opcode table -/

/-- The mask and match of PIT_CW_SC3. -/
theorem sc3_match {w : BitVec 1} {p sc am : BitVec 2} {m : BitVec 3} {b : BitVec 1} :
    portWord w p (modeByte sc am m b) &&& 0x7C0 = 0x7C0 ↔ w = 1 ∧ p = 3 ∧ sc = 3 := by
  have hmask : (0x7C0 : PortWord) =
      portWord (BitVec.allOnes 1) (BitVec.allOnes 2) (modeByte (BitVec.allOnes 2) 0 0 0) := rfl
  rw [hmask, portWord_and, modeByte_and, portWord_inj, modeByte_inj]
  simp only [BitVec.and_allOnes, BitVec.ofNat_eq_ofNat, BitVec.and_zero, and_true]
  rfl

/-- The mask of the four mode-word rows, and the match of the row with access mode `a`. -/
theorem modeWord_match {w : BitVec 1} {p sc am : BitVec 2} {m : BitVec 3} {b : BitVec 1} {t : PortWord} (a : BitVec 2)
    (ht : t = portWord 1 3 (modeByte 0 a 0 0)) :
    portWord w p (modeByte sc am m b) &&& 0x730 = t ↔ w = 1 ∧ p = 3 ∧ am = a := by
  have hmask : (0x730 : PortWord) =
      portWord (BitVec.allOnes 1) (BitVec.allOnes 2) (modeByte 0 (BitVec.allOnes 2) 0 0) := rfl
  rw [ht, hmask, portWord_and, modeByte_and, portWord_inj, modeByte_inj]
  simp only [BitVec.and_allOnes, BitVec.ofNat_eq_ofNat, BitVec.and_zero, and_true, true_and]

/-- The mask and match of PIT_RD_CW. -/
theorem rdCw_match {w : BitVec 1} {p : BitVec 2} {d : Byte} : portWord w p d &&& 0x700 = 0x300 ↔ w = 0 ∧ p = 3 := by
  have hmatch : (0x300 : PortWord) = portWord 0 3 0 := rfl
  rw [portWord_and_0x700, hmatch, portWord_inj]
  simp

/-- Settles O3: each mask and match picks out the fields by which the decode procedure chooses the row. -/
theorem controlWordRowsOfTheTable : Obligations.ControlWordRowsOfTheTable := by
  intro ctx t i hdec
  obtain ⟨w, p, sc, am, m, b, rfl⟩ : ∃ w p sc am m b, t = portWord w p (modeByte sc am m b) :=
    ⟨_, _, _, _, _, _, by rw [modeByte_fields, portWord_fields]⟩
  rw [Laws.decode_ptw] at hdec
  obtain rfl := Except.ok.inj hdec
  rw [modeWord_match (t := 0x700) 0 rfl, modeWord_match (t := 0x710) 1 rfl, modeWord_match (t := 0x720) 2 rfl,
    modeWord_match (t := 0x730) 3 rfl, ne_eq, sc3_match, rdCw_match]
  simp only [decodePtw, pField_portWord, wField_portWord, dField_portWord]
  obtain ⟨rfl, hc⟩ | ⟨c, rfl, hc⟩ := chan_ofBits_eq p <;> rw [hc] <;> obtain rfl | rfl := wBit_cases w
  · simp only [decodeModeWord, scField_modeByte, amField_modeByte, mField_modeByte, bcdField_modeByte]
    obtain ⟨rfl, hc⟩ | ⟨c, rfl, hc⟩ := chan_ofBits_eq sc <;> rw [hc]
    · simp
    · obtain rfl | rfl | rfl | rfl := field_cases am <;> simp
  · simp
  · dsimp only
    generalize ctx.am c = a
    cases a <;> simp [decodeDataWrite]
  · dsimp only
    generalize ctx.am c = a
    cases a <;> simp [decodeDataRead]

/-! ## Data ports -/

/-- The row of a data write, by the AM bits. -/
theorem decodeDataWrite_ofBits (am : BitVec 2) (c : Chan) (v : Byte) : decodeDataWrite (AccessMode.ofBits am) c v =
    if am = 0 then .pitWrDataAm0 c v else if am = 1 then .pitWrDataLsb c v
      else if am = 2 then .pitWrDataMsb c v else .pitWrDataLsbMsb c v := by
  unfold AccessMode.ofBits
  repeat' split
  all_goals rfl

/-- The row of a data read, by the AM bits. -/
theorem decodeDataRead_ofBits (am : BitVec 2) (c : Chan) : decodeDataRead (AccessMode.ofBits am) c =
    if am = 0 then .pitRdLatched c else if am = 1 then .pitRdLsb c
      else if am = 2 then .pitRdMsb c else .pitRdLsbMsb c := by
  unfold AccessMode.ofBits
  repeat' split
  all_goals rfl

end Sys2Proof

namespace Sys2Proof.Machine

/-- Settles O4: the word's port bits are the channel's number, and the decoder reads that channel's stored AM bits. -/
theorem storedAccessModeSelectsTheRow : Obligations.StoredAccessModeSelectsTheRow := by
  intro s c v
  have hwrite : 0x400 + 256 * c.bits.toNat + v.toNat = (portWord 1 c.bits v).toNat := by
    rw [toNat_portWord, show (1 : BitVec 1).toNat = 1 from rfl]
    omega
  have hread : 256 * c.bits.toNat + v.toNat = (portWord 0 c.bits v).toNat := by
    rw [toNat_portWord, show (0 : BitVec 1).toNat = 0 from rfl]
    omega
  have ham : s.decodeCtx.am c = AccessMode.ofBits (amField (s.channel c).controlWord) := decodeCtx_am s c
  rw [hwrite, hread, Laws.decode_ptw, Laws.decode_ptw]
  constructor
  · rw [← amField, ← decodeDataWrite_ofBits, ← ham]
    simp [decodePtw]
  · rw [← amField, ← decodeDataRead_ofBits, ← ham]
    simp [decodePtw]

/-- Settles O5: the words evaluate. -/
theorem sampleWordsDecode : Obligations.SampleWordsDecode := by
  unfold Obligations.SampleWordsDecode
  decide

end Sys2Proof.Machine
end

section

/-! # The channels of the PIT over all operations (10_state.md section 5) -/

namespace Sys2Proof.Machine

/-! ## What happens to a channel -/

theorem tickPit_channel (n : Nat) (p : Pit) (c : Chan) : (tickPit n p).channel c = Channel.tick^[n] (p.channel c) := by
  induction n generalizing p with
  | zero => rfl
  | succ n ih =>
    rw [tickPit, ih, Function.iterate_succ_apply]
    cases c <;> rfl

/-- A base tick ticks every channel as often as the PIT's handler is invoked. -/
theorem baseTick_channel (s : State) : ∃ n, ∀ c, s.baseTick.channel c = Channel.tick^[n] (s.channel c) := by
  obtain ⟨n, hn⟩ := baseTick_pit s
  exact ⟨n, fun c => by rw [State.channel, hn, tickPit_channel, State.channel]⟩

/-- What an operation makes of channel `c`: nothing, a step of the channel, some ticks, or a channel of a new PIT. -/
theorem Performs.channel_cases {s t : State} {i : Instr} (h : Performs s i t) (c : Chan) :
    t.channel c = s.channel c ∨ ChannelStep s.params i c (s.channel c) (t.channel c) ∨
    (i.ticks = true ∧ ∃ n, t.channel c = Channel.tick^[n] (s.channel c)) ∨
    (s.pitExists = false ∧ t.channel c = Channel.zero) := by
  cases h with
  | channel c' y r hr hstep =>
    by_cases hc : c = c'
    · subst hc
      rw [returning_channel, setChannel_same]
      exact .inr (.inl hstep)
    · exact .inl (setChannel_other s y hc)
  | runsHandler hi => exact .inr (.inr (.inl ⟨by rw [hi]; rfl, 1, pitTick_channel s c⟩))
  | ticksClock hi =>
    obtain ⟨n, hn⟩ := baseTick_channel s
    exact .inr (.inr (.inl ⟨by rw [hi]; rfl, n, hn c⟩))
  | constructsPit hi hnew => exact .inr (.inr (.inr ⟨hnew, by cases c <;> rfl⟩))
  | undefined u => exact .inl (record_channel s _ c)
  | refuses f => exact .inl (record_channel s _ c)
  | _ => exact .inl rfl

/-- A property of a channel that holds of a new one, and that every step and every tick keeps, is kept by every operation. -/
theorem Performs.keeps_channel {P : Chan → Channel → Prop} {s t : State} {i : Instr} (h : Performs s i t)
    (hzero : ∀ c, P c Channel.zero) (hstep : ∀ c x y, ChannelStep s.params i c x y → P c x → P c y)
    (htick : ∀ c x, P c x → P c x.tick) (hs : ∀ c, P c (s.channel c)) : ∀ c, P c (t.channel c) := by
  intro c
  obtain heq | hch | ⟨-, n, heq⟩ | ⟨-, heq⟩ := h.channel_cases c
  · exact heq ▸ hs c
  · exact hstep c _ _ hch (hs c)
  · rw [heq]
    exact Function.Iterate.rec (P c) (hs c) (htick c) n
  · exact heq ▸ hzero c

/-! ## The invariants of the PIT -/

@[simp] theorem arm_controlWord (x : Channel) : x.arm.controlWord = x.controlWord := by rw [arm_eq]

@[simp] theorem arm_output (x : Channel) : x.arm.output = x.output := by rw [arm_eq]

@[simp] theorem setGate_controlWord (x : Channel) (level : Bool) : (x.setGate level).controlWord = x.controlWord := by
  rw [setGate_eq]

@[simp] theorem setGate_output (x : Channel) (level : Bool) : (x.setGate level).output = x.output := by rw [setGate_eq]

/-- No step of a channel writes its output. -/
theorem ChannelStep.output_eq {p : Params} {i : Instr} {c : Chan} {x y : Channel} (h : ChannelStep p i c x y) :
    y.output = x.output := by
  cases h with
  | singleByte w hi => rw [arm_output]
  | secondByte v w hi => rw [arm_output]
  | gate level hi => rw [setGate_output]
  | _ => rfl

/-- A step of a channel keeps its control word, or stores a mode word of the channel that the policy admits. -/
theorem ChannelStep.controlWord_cases {p : Params} {i : Instr} {c : Chan} {x y : Channel} (h : ChannelStep p i c x y) :
    y.controlWord = x.controlWord ∨
    ∃ am m b, y.controlWord = modeByte c.bits am m b ∧ refusesMode p (modeByte c.bits am m b) = false := by
  cases h with
  | modeWord am m b hi hp => exact .inr ⟨am, m, b, rfl, hp⟩
  | latchCommand m b hi hp => exact .inr ⟨0, m, b, rfl, hp⟩
  | singleByte w hi => exact .inl (arm_controlWord _)
  | secondByte v w hi => exact .inl (arm_controlWord _)
  | gate level hi => exact .inl (setGate_controlWord _ _)
  | _ => exact .inl rfl

theorem Performs.outputsLow {s t : State} {i : Instr} (h : Performs s i t) (hs : OutputsLow s) : OutputsLow t :=
  h.keeps_channel (P := fun _ x => x.output = false) (fun _ => rfl) (fun _ _ _ hstep hx => hstep.output_eq.trans hx)
    (fun _ _ _ => rfl) hs

/-- Under `refuse` a stored mode word has mode 0 (44_pit_counting.md R207). -/
theorem mField_eq_zero_of_admitted {p : Params} {v : Byte} (hpolicy : p.policy = .refuse)
    (h : refusesMode p v = false) : mField v = 0 := by
  by_contra hm
  cases h.symm.trans (refusesMode_eq_true_iff.mpr ⟨hpolicy, hm⟩)

theorem Performs.refuseKeepsModeZero {s t : State} {i : Instr} (h : Performs s i t) (hs : RefuseKeepsModeZero s) :
    RefuseKeepsModeZero t := by
  intro hpolicy
  rw [h.params_eq] at hpolicy
  refine h.keeps_channel (P := fun _ x => mField x.controlWord = 0) (fun _ => rfl) (fun c x y hstep hx => ?_)
    (fun _ _ => id) (hs hpolicy)
  obtain heq | ⟨am, m, b, heq, hp⟩ := hstep.controlWord_cases <;> rw [heq]
  · exact hx
  · exact mField_eq_zero_of_admitted hpolicy hp

theorem Performs.selectFieldIsOwn {s t : State} {i : Instr} (h : Performs s i t) (hs : SelectFieldIsOwn s) :
    SelectFieldIsOwn t := by
  refine h.keeps_channel (P := fun c x => scField x.controlWord = c.bits ∨ x.controlWord = 0) (fun _ => .inr rfl)
    (fun c x y hstep hx => ?_) (fun _ _ => id) hs
  obtain heq | ⟨am, m, b, heq, -⟩ := hstep.controlWord_cases <;> rw [heq]
  · exact hx
  · exact .inl (scField_modeByte _ _ _ _)

/-- Settles O27: no step of a channel writes the output and a tick clears it; every control word stored is one that the policy
admits, with the channel's own number in SC. -/
theorem pitInvariantsKept : Obligations.PitInvariantsKept := by
  intro s t hstep
  exact ⟨step_keeps (P := OutputsLow) (fun _ _ => id) (fun _ _ _ h => h.outputsLow) hstep,
    step_keeps (P := RefuseKeepsModeZero) (fun _ _ => id) (fun _ _ _ h => h.refuseKeepsModeZero) hstep,
    step_keeps (P := SelectFieldIsOwn) (fun _ _ => id) (fun _ _ _ h => h.selectFieldIsOwn) hstep⟩

/-! ## The writers of each field -/

/-- Operation `i` takes channel `c` from `x` to `y` and may write every field that differs (10_state.md section 5). A field
that is not mentioned where the structure is built is one that `y` has from `x`. -/
structure WritesOnly (i : Instr) (c : Chan) (x y : Channel) : Prop where
  controlWord : y.controlWord ≠ x.controlWord → i.writesModeWord c = true := by exact fun h => absurd rfl h
  counter : y.counter ≠ x.counter →
    i.writesData c = true ∨ (i.ticks = true ∧ x.running = true ∧ x.counter ≠ 0) := by exact fun h => absurd rfl h
  countLatch : y.countLatch ≠ x.countLatch → ∃ m b, i = .pitCwLatch c m b := by exact fun h => absurd rfl h
  latchPhase : y.latchPhase ≠ x.latchPhase → i = .pitRdLatched c ∨ ∃ m b, i = .pitCwLatch c m b := by
    exact fun h => absurd rfl h
  readPhase : y.readPhase ≠ x.readPhase → i = .pitRdLsbMsb c := by exact fun h => absurd rfl h
  writePhase : y.writePhase ≠ x.writePhase → ∃ v, i = .pitWrDataLsbMsb c v := by exact fun h => absurd rfl h
  gate : y.gate ≠ x.gate → ∃ level, i = .pitSetGate c level := by exact fun h => absurd rfl h
  running : y.running ≠ x.running → x.controlWord.extractLsb' 1 3 = 0 ∧
    (i.writesData c = true ∨ ∃ level, i = .pitSetGate c level) := by exact fun h => absurd rfl h
  output : y.output ≠ x.output → i.ticks = true ∧ y.output = false := by exact fun h => absurd rfl h

theorem WritesOnly.refl (i : Instr) (c : Chan) (x : Channel) : WritesOnly i c x x := {}

theorem modeZero_iff {x : Channel} : x.modeZero = true ↔ x.controlWord.extractLsb' 1 3 = 0 := beq_iff_eq

/-- A flag that is written in mode 0 alone has changed only in mode 0 (44_pit_counting.md R206). -/
theorem mode_eq_zero_of_ite_ne {x : Channel} {b : Bool} (h : (if x.modeZero then b else x.running) ≠ x.running) :
    x.controlWord.extractLsb' 1 3 = 0 := by
  by_contra hm
  exact h (if_neg (mt modeZero_iff.mp hm))

/-- Each step of a channel writes only the fields its operation may write. -/
theorem ChannelStep.writesOnly {p : Params} {i : Instr} {c : Chan} {x y : Channel} (h : ChannelStep p i c x y) :
    WritesOnly i c x y := by
  cases h with
  | modeWord am m b hi hp => exact { controlWord := fun _ => hi }
  | latchCommand m b hi hp =>
    exact {
      controlWord := fun _ => hi ▸ beq_self_eq_true c
      countLatch := fun _ => ⟨m, b, hi⟩
      latchPhase := fun _ => .inr ⟨m, b, hi⟩ }
  | singleByte w hi =>
    rw [arm_eq]
    exact { counter := fun _ => .inl hi, running := fun hne => ⟨mode_eq_zero_of_ite_ne (x := x) hne, .inl hi⟩ }
  | firstByte v w hi =>
    exact { counter := fun _ => .inl (hi ▸ beq_self_eq_true c), writePhase := fun _ => ⟨v, hi⟩ }
  | secondByte v w hi =>
    rw [arm_eq]
    have hdata : i.writesData c = true := hi ▸ beq_self_eq_true c
    exact {
      counter := fun _ => .inl hdata
      writePhase := fun _ => ⟨v, hi⟩
      running := fun hne => ⟨mode_eq_zero_of_ite_ne (x := x) hne, .inl hdata⟩ }
  | latchedRead hi => exact { latchPhase := fun _ => .inl hi }
  | pairRead hi => exact { readPhase := fun _ => hi }
  | gate level hi =>
    rw [setGate_eq]
    exact { gate := fun _ => ⟨level, hi⟩, running := fun hne => ⟨mode_eq_zero_of_ite_ne hne, .inr ⟨level, hi⟩⟩ }

/-- A channel that is stopped or at zero does not count (44_pit_counting.md R200). -/
theorem nextCount_of_idle {x : Channel} (h : ¬ (x.running = true ∧ x.counter ≠ 0)) : x.nextCount = x.counter := by
  unfold Channel.nextCount
  rw [if_neg]
  simpa using h

/-- Ticks write the counter, of a running channel that is not at zero, and clear the output; nothing else. -/
theorem iterate_tick_eq (x : Channel) (n : Nat) : ∃ w o, Channel.tick^[n] x = { x with counter := w, output := o } ∧
    (w ≠ x.counter → x.running = true ∧ x.counter ≠ 0) ∧ (o ≠ x.output → o = false) := by
  induction n with
  | zero => exact ⟨x.counter, x.output, rfl, fun h => absurd rfl h, fun h => absurd rfl h⟩
  | succ n ih =>
    obtain ⟨w, o, heq, hw, -⟩ := ih
    rw [Function.iterate_succ_apply', heq]
    refine ⟨_, false, rfl, fun hne => ?_, fun _ => rfl⟩
    by_contra hidle
    have hwx : w = x.counter := by
      by_contra hne'
      exact hidle (hw hne')
    subst hwx
    exact hne (nextCount_of_idle hidle)

theorem iterate_tick_writesOnly {i : Instr} (hi : i.ticks = true) (c : Chan) (x : Channel) (n : Nat) :
    WritesOnly i c x (Channel.tick^[n] x) := by
  obtain ⟨w, o, heq, hw, ho⟩ := iterate_tick_eq x n
  rw [heq]
  exact { counter := fun hne => .inr ⟨hi, hw hne⟩, output := fun hne => ⟨hi, ho hne⟩ }

/-- Every operation on a machine whose PIT exists writes only the fields it may write. -/
theorem Performs.writesOnly {s t : State} {i : Instr} (h : Performs s i t) (hpit : s.pitExists = true) (c : Chan) :
    WritesOnly i c (s.channel c) (t.channel c) := by
  obtain heq | hstep | ⟨hi, n, heq⟩ | ⟨hnew, -⟩ := h.channel_cases c
  · exact heq ▸ WritesOnly.refl i c _
  · exact hstep.writesOnly
  · exact heq ▸ iterate_tick_writesOnly hi c _ n
  · cases hpit.symm.trans hnew

/-- Settles O51: `Performs.writesOnly`, field by field. -/
theorem channelFieldsHaveOnlyTheseWriters : Obligations.ChannelFieldsHaveOnlyTheseWriters := by
  intro i s t c hexec hpit
  have h := (performs_of_exec hexec).writesOnly hpit c
  exact ⟨h.controlWord, h.counter, h.countLatch, h.latchPhase, h.readPhase, h.writePhase, h.gate, h.running, h.output⟩

/-! ## The latch is isolated (42_pit_control.md R160) -/

/-- The latch of channel `c` holds the snapshot `n`, `k` latched reads after it was taken, and the channel is in access mode 0. -/
structure Latched (n : Word16) (c : Chan) (k : Nat) (s : State) : Prop where
  pitExists : s.pitExists = true
  accessMode : amField (s.channel c).controlWord = 0
  countLatch : (s.channel c).countLatch = n
  latchPhase : (s.channel c).latchPhase = decide (k % 2 = 1)

/-- The counter-latch command takes the snapshot, where it is not refused (R152). -/
theorem Latched.of_command {s s1 : State} {c : Chan} {m : BitVec 3} {b : BitVec 1} (hpit : s.pitExists = true)
    (h : exec (.pitCwLatch c m b) s = .next s1) (hok : s1.result = .ok) : Latched (s.channel c).counter c 0 s1 := by
  rw [exec_pitCwLatch, execPitCwLatch] at h
  obtain ⟨-, rfl⟩ | ⟨-, rfl⟩ := writeModeWord_next h
  · cases hok
  · refine ⟨hpit, ?_, ?_, ?_⟩ <;> rw [returning_channel, setChannel_same]
    · exact amField_modeByte _ _ _ _
    · rfl
    · rfl

/-- A latched read toggles the phase and keeps the snapshot (R176). -/
theorem Latched.read {n : Word16} {c : Chan} {k : Nat} {s t : State} {i : Instr} (h : Latched n c k s)
    (hexec : exec i s = .next t) (hi : s.performed i = .pitRdLatched c) : Latched n c (k + 1) t := by
  rw [busDeliversTheDecodedOperation i s, hi] at hexec
  obtain rfl := Host.Outcome.next.inj hexec
  obtain ⟨hpit, ham, hlatch, hphase⟩ := h
  refine ⟨hpit, ?_, ?_, ?_⟩ <;> rw [returning_channel, setChannel_same]
  · exact ham
  · exact hlatch
  · rw [Channel.toggleLatchPhase, hphase, ← decide_not]
    exact decide_eq_decide.mpr (by omega)

/-- An operation that is neither a mode word nor a latched read of the channel leaves the latch as it is. -/
theorem Latched.other {n : Word16} {c : Chan} {k : Nat} {s t : State} {i : Instr} (h : Latched n c k s)
    (hexec : exec i s = .next t) (hw : (s.performed i).writesModeWord c = false)
    (hr : s.performed i ≠ .pitRdLatched c) : Latched n c k t := by
  have hperf := performs_of_exec hexec
  have honly := hperf.writesOnly h.pitExists c
  have hnot : ¬ ∃ m b, s.performed i = .pitCwLatch c m b := by
    rintro ⟨m, b, heq⟩
    rw [heq, Instr.writesModeWord, beq_self_eq_true] at hw
    cases hw
  have hcw : (t.channel c).controlWord = (s.channel c).controlWord :=
    not_not.mp fun hne => by cases hw.symm.trans (honly.controlWord hne)
  have hlatch : (t.channel c).countLatch = (s.channel c).countLatch :=
    not_not.mp fun hne => hnot (honly.countLatch hne)
  have hphase : (t.channel c).latchPhase = (s.channel c).latchPhase :=
    not_not.mp fun hne => (honly.latchPhase hne).elim hr hnot
  exact ⟨hperf.pitExists h.pitExists, hcw ▸ h.accessMode, hlatch.trans h.countLatch, hphase.trans h.latchPhase⟩

theorem Latched.of_undisturbed {n : Word16} {c : Chan} {k : Nat} {s u : State} (hs : Latched n c 0 s)
    (h : Undisturbed c k s u) : Latched n c k u := by
  induction h with
  | refl s => exact hs
  | read i h he hr ih => exact (ih hs).read he hr
  | other i h he hw hr ih => exact (ih hs).other he hw hr

/-- Settles O53: `Latched` holds after the command and along the run; it fixes the row of the data port and the byte that the
phase selects. -/
theorem latchSnapshotIsIsolated : Obligations.LatchSnapshotIsIsolated := by
  intro s s1 u c m b k hpit hcmd hok hrun
  have h := (Latched.of_command hpit hcmd hok).of_undisturbed hrun
  constructor
  · obtain ⟨-, hread⟩ := storedAccessModeSelectsTheRow u c 0
    have ham : (u.channel c).controlWord.extractLsb' 4 2 = 0 := h.accessMode
    rw [if_pos ham] at hread
    exact hread
  · refine ⟨_, latchedRead u c, ?_⟩
    rw [returning_result, h.countLatch, h.latchPhase]
    obtain heven | hodd := Nat.mod_two_eq_zero_or_one k
    · simp [heven]
    · simp [hodd]

/-! ## Channel independence (44_pit_counting.md section 4) -/

theorem setChannel_channel (s : State) (c : Chan) : s.setChannel c (s.channel c) = s := by cases c <;> rfl

/-- The state with the records of a list, at most one, added to `faults`. -/
def State.recording (s : State) : Option FaultRecord → State
  | none => s
  | some f => s.record f

/-- `f` reads channel `c` and the parameters alone, and writes that channel, `faults` and the result alone. -/
def ActsOnChannel (c : Chan) (f : State → Answer) : Prop :=
  ∀ (p : Params) (x : Channel), ∃ (y : Channel) (r : Result) (o : Option FaultRecord), ∀ s : State,
    s.params = p → s.channel c = x → f s = .next (((s.recording o).setChannel c y).returning r)

theorem actsOnChannel_returning (c : Chan) (r : Channel → Result) :
    ActsOnChannel c fun s => .next (s.returning (r (s.channel c))) := by
  intro p x
  refine ⟨x, r x, none, ?_⟩
  rintro s - rfl
  rw [State.recording, setChannel_channel]

theorem actsOnChannel_setChannel (c : Chan) (y : Channel → Channel) (r : Channel → Result) :
    ActsOnChannel c fun s => .next ((s.setChannel c (y (s.channel c))).returning (r (s.channel c))) := by
  intro p x
  refine ⟨y x, r x, none, ?_⟩
  rintro s - rfl
  rfl

theorem actsOnChannel_writeModeWord (c : Chan) (v : Byte) (f : Channel → Channel) :
    ActsOnChannel c (writeModeWord c v f) := by
  intro p x
  cases hr : refusesMode p v with
  | true =>
    refine ⟨x, .refused (.modeWord v), some (.refused (.modeWord v)), ?_⟩
    rintro s rfl rfl
    have hch : (s.record (.refused (.modeWord v))).setChannel c (s.channel c) = s.record (.refused (.modeWord v)) := by
      rw [← record_channel s (.refused (.modeWord v)), setChannel_channel]
    rw [writeModeWord, if_pos hr, State.recording, hch, refuseForm]
  | false =>
    refine ⟨f { x with controlWord := v }, .ok, none, ?_⟩
    rintro s rfl rfl
    rw [writeModeWord, if_neg (by simp [hr]), State.recording]

theorem actsOnChannel_execPitWrDataLsbMsb (c : Chan) (v : Byte) : ActsOnChannel c (execPitWrDataLsbMsb c v) := by
  intro p x
  cases hw : x.writePhase with
  | true =>
    refine ⟨{ x with counter := withHi x.counter (writeByte x.bcd v), writePhase := false }.arm, .ok, none, ?_⟩
    rintro s - rfl
    simp [execPitWrDataLsbMsb, hw, storeChannel, State.recording]
  | false =>
    refine ⟨{ x with counter := withLo x.counter (writeByte x.bcd v), writePhase := true }, .ok, none, ?_⟩
    rintro s - rfl
    simp [execPitWrDataLsbMsb, hw, storeChannel, State.recording]

/-- Every operation of one channel acts on that channel alone. -/
theorem actsOnChannel_exec {i : Instr} {c : Chan} (hi : i.onChannel? = some c) : ActsOnChannel c (exec i) := by
  cases i <;> cases hi
  case pitCwLatch m b => exact actsOnChannel_writeModeWord c _ _
  case pitCwSetLsb m b => exact actsOnChannel_writeModeWord c _ _
  case pitCwSetMsb m b => exact actsOnChannel_writeModeWord c _ _
  case pitCwSetLsbMsb m b => exact actsOnChannel_writeModeWord c _ _
  case pitWrDataAm0 v => exact actsOnChannel_returning c fun _ => .error (.invalidAccessMode c .latch)
  case pitWrDataLsb v =>
    exact actsOnChannel_setChannel c (fun x => { x with counter := withLo x.counter (writeByte x.bcd v) }.arm) fun _ => .ok
  case pitWrDataMsb v =>
    exact actsOnChannel_setChannel c (fun x => { x with counter := withHi x.counter (writeByte x.bcd v) }.arm) fun _ => .ok
  case pitWrDataLsbMsb v => exact actsOnChannel_execPitWrDataLsbMsb c v
  case pitRdLatched =>
    exact actsOnChannel_setChannel c Channel.toggleLatchPhase fun x => .byte (phaseByte x.latchPhase x.countLatch)
  case pitRdLsb => exact actsOnChannel_returning c fun x => .byte (lo x.counter)
  case pitRdMsb => exact actsOnChannel_returning c fun x => .byte (hi x.counter)
  case pitRdLsbMsb =>
    exact actsOnChannel_setChannel c Channel.toggleReadPhase fun x => .byte (phaseByte x.readPhase x.counter)
  case pitSetGate level => exact actsOnChannel_setChannel c (fun x => x.setGate level) fun _ => .ok

@[simp] theorem recording_channel (s : State) (o : Option FaultRecord) (c : Chan) :
    (s.recording o).channel c = s.channel c := by
  cases o with
  | none => rfl
  | some f => exact record_channel s f c

/-- Recording, replacing a channel and returning write `pit`, `faults` and `result` alone. -/
theorem recording_setChannel_frame (s : State) (o : Option FaultRecord) (c : Chan) (y : Channel) (r : Result) :
    let t := ((s.recording o).setChannel c y).returning r
    t = { s with pit := t.pit, faults := t.faults, result := t.result } := by
  cases o with
  | none => rfl
  | some f =>
    unfold State.recording State.record
    dsimp only
    split <;> rfl

/-- Settles O52: two states that agree on the channel and the parameters get the same new channel and the same result. -/
theorem channelsAreIndependent : Obligations.ChannelsAreIndependent := by
  intro i c s s' hi hch hp
  obtain ⟨y, r, o, h⟩ := actsOnChannel_exec hi s.params (s.channel c)
  refine ⟨_, _, h s rfl rfl, h s' hp.symm hch.symm, ?_, rfl, fun c' hc' => ?_, recording_setChannel_frame s o c y r⟩
  · simp only [returning_channel, setChannel_same]
  · rw [returning_channel, setChannel_other _ _ hc', recording_channel]

end Sys2Proof.Machine
end

section

/-! # The PIT's construction, mode words and accesses out of place: proofs of 42_pit_control.md -/

namespace Sys2Proof.Machine

/-! ## Construction -/

theorem pitZero_channel (c : Chan) : Pit.zero.channel c = Channel.zero := by cases c <;> rfl

/-- Settles O29: where no PIT exists the construction zeroes every channel and subscribes the handler. -/
theorem pitConstructZeroes : Obligations.PitConstructZeroes := by
  intro s hnew
  obtain ⟨hp, -⟩ | ⟨-, hnext⟩ := execPitConstruct_cases s
  · cases hnew.symm.trans hp
  · refine ⟨_, hnext, rfl, rfl, fun c => ?_, rfl, rfl, rfl⟩
    rw [returning_channel, State.channel, pitZero_channel]
    exact ⟨rfl, rfl, rfl, rfl, rfl, rfl, rfl, rfl, rfl⟩

/-! ## Mode words -/

/-- Settles O31: each row rebuilds the byte it was decoded from and adds no effect of its own. -/
theorem modeWordsWriteOnlyTheControlWord : Obligations.ModeWordsWriteOnlyTheControlWord := by
  intro s c v hsc hadmitted stored
  have hrow (am : BitVec 2) (ham : amField v = am) :
      writeModeWord c (modeByte c.bits am (mField v) (bcdField v)) id s = stored := by
    rw [modeByte_of_fields hsc ham]
    exact writeModeWord_of_admitted id hadmitted
  exact ⟨hrow 1, hrow 2, hrow 3⟩

/-- Settles O32: the row rebuilds the byte it was decoded from and raises it. -/
theorem channelSelectThreeRaises : Obligations.ChannelSelectThreeRaises := by
  intro s v hsc
  have hbyte : modeByte 3 (amField v) (mField v) (bcdField v) = v := modeByte_of_fields hsc rfl
  exact congrArg (fun byte => raise (.invalidModeWord byte) s) hbyte

/-- A mode-word write with a nonzero mode under `refuse` is recorded with its byte (44_pit_counting.md R207). -/
theorem writeModeWord_refused {s : State} {c : Chan} {m : BitVec 3} (hpolicy : s.params.policy = .refuse) (hm : m ≠ 0)
    (am : BitVec 2) (b : BitVec 1) (f : Channel → Channel) :
    ∃ (t : State) (v : Byte), writeModeWord c (modeByte c.bits am m b) f s = .next t ∧ scField v = c.bits ∧ mField v = m ∧
      t.result = .refused (.modeWord v) ∧ .refused (.modeWord v) ∈ t.faults ∧
      t = { s with faults := t.faults, result := t.result } := by
  have hmode : mField (modeByte c.bits am m b) ≠ 0 := by rwa [mField_modeByte]
  obtain ⟨t, hnext, ht⟩ := refuseForm_records (.modeWord (modeByte c.bits am m b)) s
  exact ⟨t, _, (writeModeWord_of_refused f hpolicy hmode).trans hnext, scField_modeByte _ _ _ _, mField_modeByte _ _ _ _, ht⟩

/-- Settles O33: the four rows are mode-word writes, and the policy looks at the mode alone. -/
theorem refusePolicyRefusesNonzeroModes : Obligations.RefusePolicyRefusesNonzeroModes := by
  intro s c m b hpolicy hm
  simp only [List.forall_mem_cons]
  exact ⟨writeModeWord_refused hpolicy hm 0 b _, writeModeWord_refused hpolicy hm 1 b _,
    writeModeWord_refused hpolicy hm 2 b _, writeModeWord_refused hpolicy hm 3 b _, List.forall_mem_nil _⟩

/-! ## Accesses with no meaning, and out of range -/

/-- An Undefined access is recorded and returned, and nothing else is written (60_exceptions.md R247). -/
theorem undefinedAccess_records (u : UndefinedAccess) (s : State) :
    ∃ t, undefinedAccess u s = .next t ∧ t.result = .undefined u ∧ .undefined u ∈ t.faults ∧
      (∀ r ∈ t.faults, r = .undefined u ∨ r ∈ s.faults) ∧ (∀ r ∈ s.faults, r ∈ t.faults) ∧
      t = { s with faults := t.faults, result := t.result } :=
  ⟨(s.record (.undefined u)).returning (.undefined u), rfl, rfl, mem_record.mpr (.inl rfl), fun _ => mem_record.mp,
    fun _ h => mem_record.mpr (.inr h), record_returning_eq s _ _⟩

/-- Settles O34: each of the four rows is an Undefined access. -/
theorem undefinedAccessesAreRecorded : Obligations.UndefinedAccessesAreRecorded := by
  intro s v
  simp only [List.forall_mem_cons]
  exact ⟨undefinedAccess_records .pitOffset3Read s, undefinedAccess_records .ppiPort0Write s,
    undefinedAccess_records .ppiPort1Read s, undefinedAccess_records .ppiPort2Write s, List.forall_mem_nil _⟩

/-- A direct call is the port's access (notes/assumptions/17.md). -/
theorem exec_pitBadOffset (acc : Access) (s : State) : exec (.pitBadOffset acc) s = pitAccess acc s := rfl

theorem exec_ppiBadOffset (acc : Access) (s : State) : exec (.ppiBadOffset acc) s = ppiAccess acc s := rfl

theorem not_inPorts_of_outside {base addr : Nat} (h : addr < base ∨ base + 3 < addr) : ¬ inPorts base addr = true := by
  simp only [inPorts, Bool.and_eq_true, decide_eq_true_eq]
  omega

/-- Settles O35: the offset check comes first, and outside the ports it raises. -/
theorem directCallsOutOfRangeRaise : Obligations.DirectCallsOutOfRangeRaise := by
  intro s acc
  constructor
  · intro hout
    rw [exec_pitBadOffset]
    unfold pitAccess
    rw [if_neg (not_inPorts_of_outside hout), raise]
  · intro hout
    rw [exec_ppiBadOffset]
    unfold ppiAccess
    rw [if_neg (not_inPorts_of_outside hout), raise]

end Sys2Proof.Machine
end

section

/-! # Data writes, counting and the gate: proofs of 43_pit_data.md and 44_pit_counting.md -/

namespace Sys2Proof.Machine

/-! ## Data writes -/

theorem exec_pitWrDataAm0 (c : Chan) (v : Byte) (s : State) : exec (.pitWrDataAm0 c v) s = execPitWrDataAm0 c v s := rfl

/-- Settles O36: the row raises with its channel. -/
theorem dataWriteInLatchModeRaises : Obligations.DataWriteInLatchModeRaises := by
  intro s c v
  rw [exec_pitWrDataAm0, execPitWrDataAm0, raise]

/-- Arming, by the mode bits of the control word (R171). -/
theorem arm_eq_mode (x : Channel) :
    x.arm = { x with running := if x.controlWord.extractLsb' 1 3 = 0 then x.gate else x.running } := by
  simp only [arm_eq, modeZero_iff]

/-- Settles O37: each row replaces its byte of the counter by the byte that the BCD bit selects, and arms. -/
theorem singleByteWrites : Obligations.SingleByteWrites := by
  intro s c v x b stored
  have hb : writeByte x.bcd v = b := writeByte_bcd x v
  constructor
  · refine ⟨withLo x.counter b, lo_withLo _ _, hi_withLo _ _, ?_⟩
    rw [exec_pitWrDataLsb, execPitWrDataLsb, storeChannel, arm_eq_mode, hb]
  · refine ⟨withHi x.counter b, hi_withHi _ _, lo_withHi _ _, ?_⟩
    rw [exec_pitWrDataMsb, execPitWrDataMsb, storeChannel, arm_eq_mode, hb]

theorem execPitWrDataLsbMsb_first {c : Chan} {s : State} (v : Byte) (h : (s.channel c).writePhase = false) :
    execPitWrDataLsbMsb c v s = .next ((s.setChannel c { s.channel c with
      counter := withLo (s.channel c).counter (writeByte (s.channel c).bcd v), writePhase := true }).returning .ok) := by
  simp [execPitWrDataLsbMsb, h, storeChannel]

theorem execPitWrDataLsbMsb_second {c : Chan} {s : State} (v : Byte) (h : (s.channel c).writePhase = true) :
    execPitWrDataLsbMsb c v s = .next ((s.setChannel c { s.channel c with
      counter := withHi (s.channel c).counter (writeByte (s.channel c).bcd v)
      writePhase := false
      running := if (s.channel c).controlWord.extractLsb' 1 3 = 0 then (s.channel c).gate
        else (s.channel c).running }).returning .ok) := by
  simp [execPitWrDataLsbMsb, h, storeChannel, arm_eq_mode]

/-- Settles O39: the write phase chooses the byte of the counter, and the second write arms. -/
theorem lowThenHighWrite : Obligations.LowThenHighWrite := by
  intro s c v
  dsimp only
  rw [exec_pitWrDataLsbMsb, ← writeByte_bcd]
  cases hphase : (s.channel c).writePhase with
  | false =>
    refine ⟨withLo (s.channel c).counter (writeByte (s.channel c).bcd v), fun _ => ?_, fun h => ?_⟩
    · exact ⟨lo_withLo _ _, hi_withLo _ _, execPitWrDataLsbMsb_first v hphase⟩
    · cases h
  | true =>
    refine ⟨withHi (s.channel c).counter (writeByte (s.channel c).bcd v), fun h => ?_, fun _ => ?_⟩
    · cases h
    · exact ⟨hi_withHi _ _, lo_withHi _ _, execPitWrDataLsbMsb_second v hphase⟩

@[simp] theorem tick_countLatch (x : Channel) : x.tick.countLatch = x.countLatch := rfl

@[simp] theorem tick_latchPhase (x : Channel) : x.tick.latchPhase = x.latchPhase := rfl

@[simp] theorem tick_writePhase (x : Channel) : x.tick.writePhase = x.writePhase := rfl

/-- A channel that counts in binary stores the byte as it is written (R170). -/
theorem writeByte_of_binary {x : Channel} (h : x.controlWord.extractLsb' 0 1 = 0) (v : Byte) : writeByte x.bcd v = v := by
  rw [writeByte_bcd, h]
  rfl

/-- A counter whose bytes have been written, low and then high, is made of the two. -/
theorem withHi_withLo (w : Word16) (low high : Byte) : withHi (withLo w low) high = joinBytes high low := by
  rw [withHi, lo_withLo]

/-- Settles O44: the two writes leave the count in the counter, the command copies it into the latch, and the tick between the
two reads does not write the latch. -/
theorem loadLatchReadRoundTrip : Obligations.LoadLatchReadRoundTrip := by
  intro s c low high hbinary hphase
  obtain ⟨s1, h1, hcounter1, hphase1, hbinary1⟩ : ∃ s1, exec (.pitWrDataLsbMsb c low) s = .next s1 ∧
      (s1.channel c).counter = withLo (s.channel c).counter low ∧ (s1.channel c).writePhase = true ∧
      (s1.channel c).controlWord.extractLsb' 0 1 = 0 := by
    refine ⟨_, execPitWrDataLsbMsb_first low hphase, ?_⟩
    simp only [returning_channel, setChannel_same, writeByte_of_binary hbinary]
    exact ⟨trivial, trivial, hbinary⟩
  obtain ⟨s2, h2, hcounter2, hphase2⟩ : ∃ s2, exec (.pitWrDataLsbMsb c high) s1 = .next s2 ∧
      (s2.channel c).counter = joinBytes high low ∧ (s2.channel c).writePhase = false := by
    refine ⟨_, execPitWrDataLsbMsb_second high hphase1, ?_⟩
    simp only [returning_channel, setChannel_same, writeByte_of_binary hbinary1, hcounter1, withHi_withLo, and_self]
  obtain ⟨s3, h3, hlatch3, hread3, hphase3⟩ : ∃ s3, exec (.pitCwLatch c 0 0) s2 = .next s3 ∧
      (s3.channel c).countLatch = joinBytes high low ∧ (s3.channel c).latchPhase = false ∧
      (s3.channel c).writePhase = false := by
    refine ⟨_, writeModeWord_of_admitted Channel.takeLatch (.inr (mField_modeByte _ _ _ _)), ?_⟩
    simp only [returning_channel, setChannel_same, Channel.takeLatch, hcounter2, hphase2, and_self]
  obtain ⟨s4, h4, hbyte4, hlatch4, hread4, hphase4⟩ : ∃ s4, exec (.pitRdLatched c) s3 = .next s4 ∧
      s4.result = .byte low ∧ (s4.channel c).countLatch = joinBytes high low ∧ (s4.channel c).latchPhase = true ∧
      (s4.channel c).writePhase = false := by
    refine ⟨_, exec_pitRdLatched c s3, ?_⟩
    simp [hlatch3, hread3, hphase3, phaseByte, Channel.toggleLatchPhase]
  refine ⟨s1, s2, s3, s4, _, _, h1, h2, h3, h4, hbyte4, exec_pitTick s4, exec_pitRdLatched c _, ?_⟩
  simp only [returning_result, returning_channel, setChannel_same, pitTick_channel, Channel.toggleLatchPhase,
    tick_countLatch, tick_latchPhase, tick_writePhase, hlatch4, hread4, hphase4, phaseByte, if_true, hi_joinBytes, and_true,
    true_and]
  rfl

/-! ## The BCD decrement (R202) -/

/-- The decrement takes 1 from the least nonzero digit; the lower ones become 9. -/
theorem bcdDec_cases {w : Word16} (hw : w ≠ 0) :
    (nib w 0 ≠ 0 ∧ bcdDec w = joinNibs (nib w 3) (nib w 2) (nib w 1) (nib w 0 - 1)) ∨
    (nib w 0 = 0 ∧ nib w 1 ≠ 0 ∧ bcdDec w = joinNibs (nib w 3) (nib w 2) (nib w 1 - 1) 9) ∨
    (nib w 0 = 0 ∧ nib w 1 = 0 ∧ nib w 2 ≠ 0 ∧ bcdDec w = joinNibs (nib w 3) (nib w 2 - 1) 9 9) ∨
    (nib w 0 = 0 ∧ nib w 1 = 0 ∧ nib w 2 = 0 ∧ nib w 3 ≠ 0 ∧ bcdDec w = joinNibs (nib w 3 - 1) 9 9 9) := by
  unfold bcdDec
  split
  case isTrue h0 => exact .inl ⟨h0, rfl⟩
  case isFalse h0 =>
    have h0 := not_not.mp h0
    split
    case isTrue h1 => exact .inr (.inl ⟨h0, h1, rfl⟩)
    case isFalse h1 =>
      have h1 := not_not.mp h1
      split
      case isTrue h2 => exact .inr (.inr (.inl ⟨h0, h1, h2, rfl⟩))
      case isFalse h2 =>
        have h2 := not_not.mp h2
        refine .inr (.inr (.inr ⟨h0, h1, h2, fun h3 => hw ?_, rfl⟩))
        rw [← joinNibs_nib w, h0, h1, h2, h3]
        rfl

/-- The statement of O47 about the nibbles of one counter. -/
theorem bcdDec_by_digit {w : Word16} (hw : w ≠ 0) : ∃ i < 4, nib w i ≠ 0 ∧ nib (bcdDec w) i = nib w i - 1 ∧
    (∀ j < i, nib w j = 0 ∧ nib (bcdDec w) j = 9) ∧ (∀ j, i < j → j < 4 → nib (bcdDec w) j = nib w j) := by
  obtain ⟨h0, hd⟩ | ⟨h0, h1, hd⟩ | ⟨h0, h1, h2, hd⟩ | ⟨h0, h1, h2, h3, hd⟩ := bcdDec_cases hw
  · refine ⟨0, by omega, h0, ?_, fun j hj => ?_, fun j hj hj' => ?_⟩
    · rw [hd, nib0_joinNibs]
    · omega
    · interval_cases j <;> simp [hd]
  · refine ⟨1, by omega, h1, ?_, fun j hj => ?_, fun j hj hj' => ?_⟩
    · rw [hd, nib1_joinNibs]
    · interval_cases j
      simp [hd, h0]
    · interval_cases j <;> simp [hd]
  · refine ⟨2, by omega, h2, ?_, fun j hj => ?_, fun j hj hj' => ?_⟩
    · rw [hd, nib2_joinNibs]
    · interval_cases j <;> simp [hd, h0, h1]
    · interval_cases j
      simp [hd]
  · refine ⟨3, by omega, h3, ?_, fun j hj => ?_, fun j hj hj' => ?_⟩
    · rw [hd, nib3_joinNibs]
    · interval_cases j <;> simp [hd, h0, h1, h2]
    · omega

/-- Settles O47: the digit that the decrement takes 1 from is the least nonzero one. -/
theorem bcdDecrementByDigit : Obligations.BcdDecrementByDigit :=
  fun _ => bcdDec_by_digit

/-- A nonzero digit minus one, as a number. -/
theorem toNat_digit_sub_one {d : BitVec 4} (h : d ≠ 0) : (d - 1).toNat + 1 = d.toNat := by
  have := d.isLt
  bv_omega

/-- The number that the four nibbles of a counter are as decimal digits. -/
def decimalValue (w : Word16) : Nat :=
  (nib w 3).toNat * 1000 + (nib w 2).toNat * 100 + (nib w 1).toNat * 10 + (nib w 0).toNat

theorem decimalValue_joinNibs (a b c d : BitVec 4) :
    decimalValue (joinNibs a b c d) = a.toNat * 1000 + b.toNat * 100 + c.toNat * 10 + d.toNat := by
  simp only [decimalValue, nib0_joinNibs, nib1_joinNibs, nib2_joinNibs, nib3_joinNibs]

theorem digits_joinNibs {a b c d : BitVec 4} (ha : a.toNat ≤ 9) (hb : b.toNat ≤ 9) (hc : c.toNat ≤ 9) (hd : d.toNat ≤ 9) :
    ∀ j < 4, (nib (joinNibs a b c d) j).toNat ≤ 9 := by
  intro j hj
  interval_cases j
  · rwa [nib0_joinNibs]
  · rwa [nib1_joinNibs]
  · rwa [nib2_joinNibs]
  · rwa [nib3_joinNibs]

/-- On decimal digits the decrement is the decimal one: the digit taken from and the 9s below it weigh one less together. -/
theorem bcdDec_decimal {w : Word16} (hw : w ≠ 0) (hdec : ∀ j < 4, (nib w j).toNat ≤ 9) :
    (∀ j < 4, (nib (bcdDec w) j).toNat ≤ 9) ∧ decimalValue (bcdDec w) + 1 = decimalValue w := by
  have hle0 := hdec 0 (by omega)
  have hle1 := hdec 1 (by omega)
  have hle2 := hdec 2 (by omega)
  have hle3 := hdec 3 (by omega)
  have hzero : (0 : BitVec 4).toNat = 0 := rfl
  have hnine : (9 : BitVec 4).toNat = 9 := rfl
  obtain ⟨h0, hd⟩ | ⟨h0, h1, hd⟩ | ⟨h0, h1, h2, hd⟩ | ⟨h0, h1, h2, h3, hd⟩ := bcdDec_cases hw <;>
    rw [hd, decimalValue_joinNibs, decimalValue]
  · have htake := toNat_digit_sub_one h0
    exact ⟨digits_joinNibs hle3 hle2 hle1 (by omega), by omega⟩
  · have htake := toNat_digit_sub_one h1
    rw [h0]
    exact ⟨digits_joinNibs hle3 hle2 (by omega) (by omega), by omega⟩
  · have htake := toNat_digit_sub_one h2
    rw [h0, h1]
    exact ⟨digits_joinNibs hle3 (by omega) (by omega) (by omega), by omega⟩
  · have htake := toNat_digit_sub_one h3
    rw [h0, h1, h2]
    exact ⟨digits_joinNibs (by omega) (by omega) (by omega) (by omega), by omega⟩

/-- Settles O48: `bcdDec_decimal`, whose digits are the nibbles of the statement. -/
theorem bcdDecrementIsDecimal : Obligations.BcdDecrementIsDecimal :=
  fun _ => bcdDec_decimal

/-! ## The tick handler and the gate -/

/-- What the counter becomes in one tick, by the BCD bit of the control word (R200). -/
theorem nextCount_eq (x : Channel) : x.nextCount =
    if x.running = true ∧ x.counter ≠ 0 then
      (if x.controlWord.extractLsb' 0 1 = 1 then bcdDec x.counter else x.counter - 1)
    else x.counter := by
  simp only [Channel.nextCount, Channel.bcd, bcdField, binDec, Bool.and_eq_true, bne_iff_ne, beq_iff_eq]

/-- Settles O45: the handler ticks every channel and writes nothing else. -/
theorem tickHandlerCounts : Obligations.TickHandlerCounts := by
  intro s
  refine ⟨_, exec_pitTick s, rfl, rfl, fun c => ?_⟩
  rw [returning_channel, pitTick_channel, Channel.tick, nextCount_eq]

theorem exec_pitSetGate (c : Chan) (level : Bool) (s : State) :
    exec (.pitSetGate c level) s = execPitSetGate c level s := rfl

/-- Settles O50: the level is stored, and `running` takes it in mode 0. -/
theorem gateInput : Obligations.GateInput := by
  intro s c level
  simp only [exec_pitSetGate, execPitSetGate, setGate_eq, modeZero_iff]

end Sys2Proof.Machine
end

section

/-! # The clock: the remaining proofs of 40_clock.md -/

namespace Sys2Proof.Machine

/-! ## Construction and control -/

/-- Every real number is named by some period: an irrational one by its sign (notes/assumptions/9.md). -/
theorem exists_period_names (r : ℝ) : ∃ period : Period, period.Names r := by
  by_cases hr : Irrational r
  · exact ⟨.irrational (decide (0 < r)) 0, hr, decide_eq_true_iff.symm⟩
  · obtain ⟨q, hq⟩ := not_not.mp hr
    exact ⟨.rational q, hq.symm⟩

/-- Settles O54: the check of the period is the sign of every real that the period names. -/
theorem clockConstruction : Obligations.ClockConstruction := by
  refine ⟨fun s period r hnames => ⟨fun hneg => ?_, fun hpos hnew => ?_⟩, exists_period_names⟩ <;>
    obtain ⟨hp, h⟩ | ⟨hp, hc, h⟩ | ⟨hp, hc, h⟩ := execClkConstruct_cases period s
  · exact h
  · exact absurd ((periodPositive_iff hnames).mp hp) hneg.not_gt
  · exact absurd ((periodPositive_iff hnames).mp hp) hneg.not_gt
  · cases hp.symm.trans ((periodPositive_iff hnames).mpr hpos)
  · cases hnew.symm.trans hc
  · exact h

theorem exec_clkSubscribe (k : EventKind) (l : Callback) (s : State) :
    exec (.clkSubscribe k l) s = execClkSubscribe k l s := rfl

/-- Settles O55: a subscription appends to the list of its kind, a re-entrant one is a Refused form, and the two switches write
`running`. -/
theorem clockControl : Obligations.ClockControl := by
  intro s l k name
  simp only [exec_clkSubscribe]
  exact ⟨rfl, rfl, rfl, refuseForm_records _ s, rfl, rfl⟩

/-! ## The tick -/

theorem exec_clkTick (s : State) : exec .clkTick s = execClkTick s := rfl

theorem exec_clkTick_running {s : State} (h : s.clock.running = true) : exec .clkTick s = .next (s.baseTick.returning .ok) := by
  rw [exec_clkTick, execClkTick, if_pos h]

theorem exec_clkTick_stopped {s : State} (h : s.clock.running = false) : exec .clkTick s = .next (s.returning .notEnabled) := by
  rw [exec_clkTick, execClkTick, if_neg (by simp [h])]

/-- A base tick writes the clock, the PIT and the trace (R106). -/
theorem baseTick_frame (s : State) :
    s.baseTick = { s with clock := s.baseTick.clock, pit := s.baseTick.pit, trace := s.baseTick.trace } := by
  unfold State.baseTick notifyPhase
  simp only [notify_eq]
  split
  · rfl
  · split <;> rfl

/-- The notifications of a base tick, in order (R106, R112). -/
theorem baseTick_trace (s : State) : s.baseTick.trace = s.trace ++ eventsOf .tick s.clock.totalTicks s.clock.tickListeners
    ++ (if s.clock.phaseCounter.val + 1 = 2 ∨ s.clock.phaseCounter.val + 1 = 4 then
        eventsOf .double (s.clock.totalTicks + 1) s.clock.doubleListeners else [])
    ++ (if s.clock.phaseCounter.val + 1 = 4 then
        eventsOf .quad (s.clock.totalTicks + 1) s.clock.quadListeners else []) := by
  unfold State.baseTick notifyPhase
  simp only [notify_clock]
  by_cases h2 : s.clock.phaseCounter.val + 1 = 2
  · simp [h2, notify_eq, Clock.listeners, Clock.advance]
  · by_cases h4 : s.clock.phaseCounter.val + 1 = 4
    · simp [h4, notify_eq, Clock.listeners, Clock.advance]
    · simp [h2, h4, notify_eq, Clock.listeners]

theorem notify_pit_of_count_eq_zero {s : State} {kind : EventKind} (h : (s.clock.listeners kind).count .pitTick = 0) :
    (notify kind s).pit = s.pit := by
  rw [notify_eq, pitTickCount, h, tickPit]

/-- A tick runs the PIT's handler once when it is subscribed once to TICK and to nothing else (R106, R114). -/
theorem baseTick_pit_of_one {s : State} (ht : s.clock.tickListeners.count .pitTick = 1)
    (hd : s.clock.doubleListeners.count .pitTick = 0) (hq : s.clock.quadListeners.count .pitTick = 0) :
    s.baseTick.pit = s.pit.tick := by
  have hone : (notify .tick s).pit = s.pit.tick := by
    rw [notify_eq, pitTickCount, Clock.listeners, ht, tickPit, tickPit]
  unfold State.baseTick notifyPhase
  dsimp only
  split
  · rw [notify_pit_of_count_eq_zero (by simpa [Clock.listeners, Clock.advance] using hd)]
    exact hone
  · split
    · rw [notify_pit_of_count_eq_zero (by simpa [Clock.listeners, Clock.advance] using hq),
        notify_pit_of_count_eq_zero (by simpa [Clock.listeners, Clock.advance] using hd)]
      exact hone
    · exact hone

/-- Settles O56: a running clock makes one base tick, which advances it; a stopped one answers `notEnabled`. -/
theorem tickAdvancesTheClock : Obligations.TickAdvancesTheClock := by
  intro s
  constructor
  · intro hrun
    have hclk : (s.baseTick.returning .ok).clock = s.clock.advance := baseTick_clock s
    refine ⟨_, exec_clkTick_running hrun, rfl, ?_, ?_, ?_, ?_, fun ht hd hq => ?_⟩
    · rw [hclk, advance_totalTicks]
    · rw [hclk, advance_phaseCounter, nextPhase_val]
      have := s.clock.phaseCounter.isLt
      split <;> omega
    · rw [hclk]
      rfl
    · exact congrArg (·.returning .ok) (baseTick_frame s)
    · exact ⟨_, exec_pitTick s, baseTick_pit_of_one ht hd hq⟩
  · intro hstop
    exact exec_clkTick_stopped hstop

/-- Settles O57: the phase reaches 2 or 4 exactly in the ticks whose number is even, and 4 in the multiples of 4. -/
theorem tickNotifications : Obligations.TickNotifications := by
  intro s hrun hphase n
  have heven : (s.clock.phaseCounter.val + 1 = 2 ∨ s.clock.phaseCounter.val + 1 = 4) ↔ n % 2 = 0 := by
    unfold PhaseTracksTotal at hphase
    omega
  have hquad : s.clock.phaseCounter.val + 1 = 4 ↔ n % 4 = 0 := by
    unfold PhaseTracksTotal at hphase
    omega
  refine ⟨_, exec_clkTick_running hrun, ?_⟩
  rw [returning_trace, baseTick_trace]
  simp only [heven]
  simp only [hquad]
  rfl

end Sys2Proof.Machine
end

section

/-! # The bus, the memory devices, the input ports and the step: the remaining proofs of 41_bus.md, 45_peripheral_interface.md and
20_memory.md section 2 -/

namespace Sys2Proof.Machine

/-! ## Memory devices -/

/-- Settles O19: each construction appends one device, a RAM with an empty memory. -/
theorem memoryDeviceConstruction : Obligations.MemoryDeviceConstruction := by
  intro s base size bytes
  exact ⟨⟨[], rfl, fun _ => rfl⟩, rfl⟩

/-- A registered RAM exists, with the range it was registered with (41_bus.md R121). -/
theorem ram_of_registered {s : State} {e : BusEntry} {n : Nat} (hbus : BusMatchesDevices s) (he : e ∈ s.bus)
    (hdev : e.device = .ram n) : ∃ d, s.rams[n]? = some d ∧ d.base = e.base ∧ d.size = e.size := by
  have hentry := hbus e he
  rw [hdev] at hentry
  obtain ⟨d, hd, hde⟩ := Option.map_eq_some_iff.mp hentry
  subst hde
  exact ⟨d, hd, rfl, rfl⟩

/-- A bus access of an address that a registered RAM owns is the RAM's access (R124, R125). -/
theorem exec_busRead_ram {s : State} {e : BusEntry} {n addr : Nat} (hl : lookup s.bus addr = some e)
    (hdev : e.device = .ram n) : exec (.busRead addr) s = exec (.ramRead n addr) s := by
  rw [busDeliversTheDecodedOperation, performed_busRead_of_some hl, hdev]
  rfl

theorem exec_busWrite_ram {s : State} {e : BusEntry} {n addr : Nat} {v : Byte} (hl : lookup s.bus addr = some e)
    (hdev : e.device = .ram n) : exec (.busWrite addr v) s = exec (.ramWrite n addr v) s := by
  rw [busDeliversTheDecodedOperation, performed_busWrite_of_some hl, hdev]
  rfl

/-- Settles O14: the lookup finds the RAM before and after the write, and the RAM's own write and read do the rest. -/
theorem ramReadsBackThroughTheBus : Obligations.RamReadsBackThroughTheBus := by
  intro s e n addr v hdisj hbus he hdev hlo hhi
  have hl : lookup s.bus addr = some e := hdisj.lookup_eq_some he (inRange_iff.mpr ⟨hlo, hhi⟩)
  obtain ⟨d, hd, hbase, hsize⟩ := ram_of_registered hbus he hdev
  rw [← hbase] at hlo hhi
  rw [← hsize] at hhi
  obtain ⟨hin, -⟩ := ramWriteStoresOneByte s n addr v d hd
  obtain ⟨m, hwrite, hsame, hother⟩ := hin hlo hhi
  obtain ⟨j, hj⟩ : ∃ j : Nat, (j : Int) = (addr : Int) - d.base := ⟨_, (eq_offsetOf_iff hlo _).mp rfl⟩
  have hn : n < s.rams.length := (List.getElem?_eq_some_iff.mp hd).choose
  refine ⟨_, (exec_busWrite_ram hl hdev).trans hwrite, rfl, ?_, rfl, rfl, rfl, rfl, List.length_set, ?_⟩
  · refine (exec_busRead_ram (e := e) ?_ hdev).trans ?_
    · exact hl
    obtain ⟨hread, -⟩ := ramReadReturnsTheByte ({ s with rams := s.rams.set n { d with mem := m } }.returning .ok) n addr
      { d with mem := m } (List.getElem?_set_self hn)
    rw [hread j hlo hhi hj, hsame j hj]
  · intro k r r' hr hr'
    by_cases hk : n = k
    · subst hk
      cases hd.symm.trans hr
      cases (List.getElem?_set_self hn).symm.trans hr'
      exact ⟨rfl, rfl, fun i hi => hother i (hbase ▸ hi rfl)⟩
    · cases (((List.getElem?_set_ne hk).symm.trans hr').symm.trans hr)
      exact ⟨rfl, rfl, fun _ _ => rfl⟩

/-! ## Registration -/

theorem overlaps_iff {d e : BusEntry} : overlaps d e = true ↔ d.base < e.base + e.size ∧ e.base < d.base + d.size := by
  simp [overlaps]

/-- Settles O20: the search for an overlap finds an intersecting device if there is one. -/
theorem registerAddsOrRaisesOverlap : Obligations.RegisterAddsOrRaisesOverlap := by
  intro s d x hx hbase hsize
  have hok : x.configOk = true := BusEntry.configOk_iff.mpr ⟨hbase, hsize⟩
  obtain ⟨hnone, -⟩ | ⟨y, hy, hcase⟩ := execBusRegister_cases d s
  · cases hx.symm.trans hnone
  · cases hx.symm.trans hy
    obtain ⟨hbad, -⟩ | ⟨-, e, hfind, hraise⟩ | ⟨-, hfind, hadd⟩ := hcase
    · cases hok.symm.trans hbad
    · have he : e ∈ s.bus := List.mem_of_find?_eq_some hfind
      have hov := overlaps_iff.mp (List.find?_some hfind)
      exact ⟨fun hall => absurd hov (hall e he), fun _ => ⟨e, he, hov, hraise⟩⟩
    · refine ⟨fun _ => hadd, fun ⟨e, he, hov⟩ => ?_⟩
      exact absurd (overlaps_iff.mpr hov) (List.find?_eq_none.mp hfind e he)

/-- Settles O21: the configuration is checked first, and a bad one is a Refused form. -/
theorem badConfigurationIsRefused : Obligations.BadConfigurationIsRefused := by
  intro s d x hx hbad
  have hnot : ¬ x.configOk = true := fun hok => by
    have := BusEntry.configOk_iff.mp hok
    omega
  obtain ⟨hnone, -⟩ | ⟨y, hy, hcase⟩ := execBusRegister_cases d s
  · cases hx.symm.trans hnone
  · cases hx.symm.trans hy
    obtain ⟨-, hrefuse⟩ | ⟨hok, -⟩ | ⟨hok, -⟩ := hcase
    · obtain ⟨t, hnext, ht⟩ := refuseForm_records (.deviceConfiguration x) s
      exact ⟨t, hrefuse.trans hnext, ht⟩
    · exact absurd hok hnot
    · exact absurd hok hnot

/-! ## The input ports of the PeripheralInterface -/

/-- A status bit stands at its position alone (45_peripheral_interface.md R225). -/
theorem getLsbD_bitAt (b : Bool) (pos j : Fin 8) : (bitAt b pos).getLsbD j.val = (b && pos == j) := by
  revert b pos j
  decide

theorem exec_ppiRd0 (s : State) : exec .ppiRd0 s = execPpiRd0 s := rfl

theorem switchesSelected_iff {s : State} :
    switchesSelected s = true ↔ s.ppi.port1Latch.getLsbD 7 = s.params.port0SwitchWhen := beq_iff_eq

/-- Settles O59: port 0 follows the selection by bit 7 of the latch, and a bit of port 2 is the disjunction of the five sources. -/
theorem peripheralInputPorts : Obligations.PeripheralInputPorts := by
  intro s
  refine ⟨fun hsel => ?_, fun hsel => ?_, port2Byte s, rfl, fun j => ?_⟩
  · rw [exec_ppiRd0, execPpiRd0, if_pos (switchesSelected_iff.mpr hsel)]
  · rw [exec_ppiRd0, execPpiRd0, if_neg (mt switchesSelected_iff.mp hsel)]
    rfl
  · simp only [port2Byte, BitVec.getLsbD_or, getLsbD_bitAt]
    rfl

/-! ## The step -/

theorem fatal_of_code {e : HwError} (h : e.code = 3 ∨ e.code = 5) : e.fatal = true := by
  cases e <;> simp_all [HwError.code, HwError.fatal]

theorem fatal_eq_false_of_code {e : HwError} (h : e.code ≠ 3 ∧ e.code ≠ 5) : e.fatal = false := by
  cases e <;> simp_all [HwError.code, HwError.fatal]

/-- The machine goes on without a record in `faults` and without a fatal error (60_exceptions.md R250; D26). -/
theorem haltReason_eq_none {s : State} (hfaults : s.faults = []) (herr : ∀ e, s.result = .error e → e.fatal = false) :
    haltReason s = none := by
  unfold haltReason
  rw [hfaults]
  cases hr : s.result with
  | error e => simp [herr e hr]
  | _ => rfl

theorem step_of_run {s s' : State} {i : Instr} (hgo : haltReason s = none) (h : fetch s = .run i s') :
    step s = exec i s' := by
  simp only [step, hgo, h]

theorem fetch_of_pending {s : State} {r : Request} {rest : List Request} {i : Instr} (hp : s.pending = r :: rest)
    (hd : decode s.decodeCtx r = .ok i) : fetch s = .run i { s with pending := rest } := by
  simp only [fetch, hp, hd]

/-- Settles O6: nothing halts the machine, and the first pending request is what is fetched. -/
theorem stepPerformsDecodedRequest : Obligations.StepPerformsDecodedRequest := by
  intro s r rest i hfaults herr hp hd
  exact step_of_run (haltReason_eq_none hfaults herr) (fetch_of_pending hp hd)

/-- Settles O7: a record and a fatal error halt the machine; otherwise the queue and the clock decide. -/
theorem stepElsewhere : Obligations.StepElsewhere := by
  intro s
  refine ⟨fun r rest hf => ?_, fun e hf he hcode => ?_, fun hf herr => ?_⟩
  · simp only [step, haltReason, hf]
  · simp only [step, haltReason, hf, he, fatal_of_code hcode, if_true]
  · have hgo := haltReason_eq_none hf fun e he => fatal_eq_false_of_code (herr e he)
    refine ⟨fun hp hrun => ?_, fun hp hrun => ?_, fun r rest e hp hd => ?_⟩
    · exact step_of_run hgo (by simp only [fetch, hp, hrun, if_true])
    · simp [step, hgo, fetch, hp, hrun]
    · simp only [step, hgo, fetch, hp, hd]

end Sys2Proof.Machine
end

section

/-! # The boot: proofs of 70_reset_and_hazards.md -/

namespace Sys2Proof.Machine

/-! ## The device map and the devices it constructs -/

/-- Every entry that the map puts on the bus is the entry of the device constructed for it (R273). -/
theorem mapBus_deviceEntry {s : State} (hpit : s.pitExists = true) (m : List MapEntry) (rams : List Ram) (roms : List Rom)
    (hrams : s.rams = rams ++ mapRams m) (hroms : s.roms = roms ++ mapRoms m) :
    ∀ e ∈ mapBus s.params rams.length roms.length m, s.deviceEntry e.device = some e := by
  induction m generalizing rams roms with
  | nil => exact List.forall_mem_nil _
  | cons entry rest ih =>
    cases entry with
    | ram base size =>
      have hget : s.rams[rams.length]? = some { base := base, size := size, mem := [] } := by simp [hrams, mapRams]
      refine List.forall_mem_cons.mpr ⟨by simp [State.deviceEntry, hget], ?_⟩
      have := ih (rams ++ [{ base := base, size := size, mem := [] }]) roms (by simp [hrams, mapRams]) hroms
      simpa using this
    | rom base bytes =>
      have hget : s.roms[roms.length]? = some { base := base, bytes := bytes } := by simp [hroms, mapRoms]
      refine List.forall_mem_cons.mpr ⟨by simp [State.deviceEntry, hget], ?_⟩
      have := ih rams (roms ++ [{ base := base, bytes := bytes }]) hrams (by simp [hroms, mapRoms])
      simpa using this
    | pit => exact List.forall_mem_cons.mpr ⟨by simp [State.deviceEntry, hpit], ih rams roms hrams hroms⟩
    | ppi => exact List.forall_mem_cons.mpr ⟨rfl, ih rams roms hrams hroms⟩

/-- Every RAM of a device map is new (41_bus.md R131). -/
theorem mem_eq_nil_of_mem_mapRams {m : List MapEntry} {d : Ram} (h : d ∈ mapRams m) : d.mem = [] := by
  induction m with
  | nil => cases h
  | cons entry rest ih =>
    cases entry with
    | ram base size =>
      obtain rfl | h := List.mem_cons.mp h
      · rfl
      · exact ih h
    | _ => exact ih h

/-! ## The initial state -/

theorem init_channel (p : Params) (b : BootConfig) (c : Chan) :
    (State.init p b).channel c = Channel.booted (b.gates.contains c) := by cases c <;> rfl

theorem booted_controlWord (high : Bool) : (Channel.booted high).controlWord = 0 := rfl

theorem init_busMatchesDevices (p : Params) (b : BootConfig) : BusMatchesDevices (State.init p b) :=
  mapBus_deviceEntry (s := State.init p b) rfl b.deviceMap [] [] rfl rfl

theorem init_memoriesCanonical (p : Params) (b : BootConfig) : MemoriesCanonical (State.init p b) := by
  intro d hd
  rw [mem_eq_nil_of_mem_mapRams (show d ∈ mapRams b.deviceMap from hd)]
  exact ⟨wf_nil, List.forall_mem_nil _⟩

/-- The ranges of the example boot do not overlap (notes/assumptions/5.md). -/
theorem reset_rangesDisjoint : RangesDisjoint State.reset := by
  have hsep : State.reset.bus.Pairwise fun d e => overlaps e d = false := by decide
  exact ⟨by decide, hsep.imp BusEntry.disjoint_of_not_overlaps⟩

theorem reset_periodPositive : PeriodPositive State.reset :=
  fun _ hr => (periodPositive_iff hr).mp (by decide)

/-- Settles O28: the fields are those of `State.init`; the invariants of the bus and the memories follow from the device map. -/
theorem resetValuesAndInvariants : Obligations.ResetValuesAndInvariants := by
  refine ⟨?_, rfl, reset_rangesDisjoint, reset_periodPositive⟩
  intro p b s hdisj hpos
  refine ⟨rfl, rfl, rfl, rfl, rfl, fun hnone => ?_, rfl, rfl, fun n d j hd => ?_, init_channel p b, fun c => ?_,
    init_busMatchesDevices p b, rfl, init_memoriesCanonical p b, fun c => ?_, fun _ c => ?_, fun c => ?_⟩
  · simp [s, State.init, hnone, bootListeners]
  · rw [mem_eq_nil_of_mem_mapRams (show d ∈ mapRams b.deviceMap from List.mem_of_getElem? hd)]
    rfl
  · rw [init_channel]
    exact ⟨rfl, rfl, rfl, rfl, rfl, rfl, rfl⟩
  · rw [init_channel]
    rfl
  · rw [init_channel, booted_controlWord]
    rfl
  · rw [init_channel]
    exact .inr rfl

/-! ## Lists of operations -/

theorem performAll_cons {i : Instr} {rest : List Instr} {s t : State} (h : exec i s = .next t) (hok : t.result = .ok) :
    performAll (i :: rest) s = performAll rest t := by
  simp only [performAll, h, hok, if_true]

/-- A list that ends in `ok` has performed every operation, so the next list goes on from its last state. -/
theorem performAll_append {l l' : List Instr} {s t : State} (h : performAll l s = .next t) (hok : t.result = .ok) :
    performAll (l ++ l') s = performAll l' t := by
  induction l generalizing s with
  | nil => cases h; rfl
  | cons i rest ih =>
    simp only [performAll, List.cons_append] at h ⊢
    cases hexec : exec i s with
    | next u =>
      simp only [hexec] at h ⊢
      split at h
      case isTrue hu =>
        rw [if_pos hu]
        exact ih h
      case isFalse hu =>
        cases h
        exact absurd hok hu
    | fault f => simp [hexec] at h
    | refused r => simp [hexec] at h

/-! ## The steps of the boot (R273) -/

/-- Step 2: the RAM and ROM devices of the map are appended to those that exist. -/
theorem performAll_deviceOps (m : List MapEntry) (s : State) : performAll (deviceOps m) (s.returning .ok) =
    .next ({ s with rams := s.rams ++ mapRams m, roms := s.roms ++ mapRoms m }.returning .ok) := by
  induction m generalizing s with
  | nil => simp [deviceOps, performAll, mapRams, mapRoms]
  | cons entry rest ih =>
    cases entry with
    | ram base size =>
      refine (performAll_cons (t := { s with rams := s.rams ++ [({ base := base, size := size, mem := [] } : Ram)] }.returning .ok) rfl rfl).trans ?_
      rw [ih]
      simp [mapRams, mapRoms]
    | rom base bytes =>
      refine (performAll_cons (t := { s with roms := s.roms ++ [({ base := base, bytes := bytes } : Rom)] }.returning .ok) rfl rfl).trans ?_
      rw [ih]
      simp [mapRams, mapRoms]
    | pit => exact ih s
    | ppi => exact ih s

theorem registerOps_eq (p : Params) (nRam nRom : Nat) (m : List MapEntry) :
    registerOps nRam nRom m = (mapBus p nRam nRom m).map fun e => .busRegister e.device := by
  induction m generalizing nRam nRom with
  | nil => rfl
  | cons entry rest ih => cases entry <;> simp [registerOps, mapBus, ih]

/-- Admitted ranges that share no address do not overlap: the larger base would be in both. -/
theorem BusEntry.Disjoint.not_overlaps {d e : BusEntry} (h : d.Disjoint e) (hd : 0 ≤ d.base ∧ 1 ≤ d.size)
    (he : 0 ≤ e.base ∧ 1 ≤ e.size) : ¬ overlaps e d = true := by
  intro hov
  rw [overlaps_iff] at hov
  refine h (max d.base e.base).toNat ?_
  rw [inRange_iff, inRange_iff]
  omega

theorem deviceEntry_returning (s : State) (r : Result) (d : DeviceRef) :
    (s.returning r).deviceEntry d = s.deviceEntry d := by cases d <;> rfl

theorem deviceEntry_bus (s : State) (bus : List BusEntry) (d : DeviceRef) :
    { s with bus := bus }.deviceEntry d = s.deviceEntry d := by cases d <;> rfl

/-- An entry that may stand on the bus with those registered is registered (41_bus.md R122). -/
theorem exec_busRegister_disjoint {s : State} {x : BusEntry} (hx : s.deviceEntry x.device = some x)
    (hdisj : RangesDisjoint { s with bus := s.bus ++ [x] }) :
    exec (.busRegister x.device) (s.returning .ok) = .next ({ s with bus := s.bus ++ [x] }.returning .ok) := by
  obtain ⟨hadm, hpair⟩ := hdisj
  have hxadm := hadm x (List.mem_append_right _ (List.mem_singleton_self x))
  have hfree : (s.returning .ok).bus.find? (overlaps x) = none := by
    rw [List.find?_eq_none]
    intro e he
    have hsep := (List.pairwise_append.mp hpair).right.right e he x (List.mem_singleton_self x)
    exact hsep.not_overlaps (hadm e (List.mem_append_left _ he)) hxadm
  obtain ⟨hnone, -⟩ | ⟨y, hy, hcase⟩ := execBusRegister_cases x.device (s.returning .ok) <;>
    rw [deviceEntry_returning, hx] at *
  · cases hnone
  · cases hy
    obtain ⟨hbad, -⟩ | ⟨-, e, hfind, -⟩ | ⟨-, -, hadd⟩ := hcase
    · cases hbad.symm.trans (BusEntry.configOk_iff.mpr hxadm)
    · cases hfree.symm.trans hfind
    · exact hadd

/-- Step 3: entries of existing devices, admitted and disjoint together with the bus, are registered in their order. -/
theorem performAll_register (es : List BusEntry) (s : State) (hentry : ∀ e ∈ es, s.deviceEntry e.device = some e)
    (hdisj : RangesDisjoint { s with bus := s.bus ++ es }) :
    performAll (es.map fun e => .busRegister e.device) (s.returning .ok) =
      .next ({ s with bus := s.bus ++ es }.returning .ok) := by
  induction es generalizing s with
  | nil => simp [performAll]
  | cons x rest ih =>
    obtain ⟨hx, hrest⟩ := List.forall_mem_cons.mp hentry
    have happ : s.bus ++ x :: rest = (s.bus ++ [x]) ++ rest := (List.append_cons _ _ _)
    rw [happ] at hdisj ⊢
    have hfirst : RangesDisjoint { s with bus := s.bus ++ [x] } :=
      ⟨fun e he => hdisj.left e (List.mem_append_left _ he), (List.pairwise_append.mp hdisj.right).left⟩
    refine (performAll_cons (exec_busRegister_disjoint hx hfirst) rfl).trans ?_
    exact ih { s with bus := s.bus ++ [x] } (fun e he => (deviceEntry_bus s _ _).trans (hrest e he)) hdisj

/-- Step 4: each listener is appended to the list of its kind. -/
theorem performAll_subscribe (ls : List (EventKind × Listener)) (s : State) :
    performAll (ls.map fun e => .clkSubscribe e.1 (.admitted e.2)) (s.returning .ok) =
      .next ({ s with clock := { s.clock with
        tickListeners := s.clock.tickListeners ++ bootListeners .tick ls
        doubleListeners := s.clock.doubleListeners ++ bootListeners .double ls
        quadListeners := s.clock.quadListeners ++ bootListeners .quad ls } }.returning .ok) := by
  induction ls generalizing s with
  | nil => simp [performAll, bootListeners]
  | cons entry rest ih =>
    obtain ⟨k, l⟩ := entry
    refine (performAll_cons (t := { s with clock := s.clock.subscribe k l }.returning .ok) rfl rfl).trans ?_
    rw [ih]
    cases k <;> simp [bootListeners, Clock.subscribe]

/-- A channel file after construction whose gates are as `high` says. -/
def Pit.booted (high : Chan → Bool) : Pit where
  ch0 := Channel.booted (high .ch0)
  ch1 := Channel.booted (high .ch1)
  ch2 := Channel.booted (high .ch2)

theorem booted_setGate (high : Bool) : (Channel.booted high).setGate true = Channel.booted true := by cases high <;> rfl

/-- A gate set high leaves a channel file after construction with that gate high. -/
theorem exec_pitSetGate_booted {s : State} {high : Chan → Bool} (hs : s.pit = Pit.booted high) (c : Chan) :
    exec (.pitSetGate c true) (s.returning .ok) =
      .next ({ s with pit := Pit.booted fun c' => high c' || c' == c }.returning .ok) := by
  have hpit : s.pit.setChannel c ((s.pit.channel c).setGate true) = Pit.booted fun c' => high c' || c' == c := by
    rw [hs]
    cases c <;> simp [Pit.setChannel, Pit.channel, Pit.booted, booted_setGate, beq_eq_decide]
  rw [← hpit]
  rfl

/-- Step 5: each gate of the list is set high; the channels are in mode 0, so `running` follows (R205). -/
theorem performAll_gates (gates : List Chan) (high : Chan → Bool) (s : State) (hs : s.pit = Pit.booted high) :
    performAll (gates.map fun c => .pitSetGate c true) (s.returning .ok) =
      .next ({ s with pit := Pit.booted fun c => high c || gates.contains c }.returning .ok) := by
  induction gates generalizing high s with
  | nil => simp [performAll, ← hs]
  | cons c rest ih =>
    refine (performAll_cons (exec_pitSetGate_booted hs c) rfl).trans ?_
    rw [ih (fun c' => high c' || c' == c) _ rfl]
    simp only [List.contains_cons, Bool.or_assoc]

/-- Every period names some real number: an irrational one √2 or -√2. -/
theorem exists_real_named (period : Period) : ∃ r : ℝ, period.Names r := by
  cases period with
  | rational q => exact ⟨q, rfl⟩
  | irrational positive name =>
    have hpos : (0 : ℝ) < √2 := Real.sqrt_pos.mpr two_pos
    cases positive with
    | true => exact ⟨√2, irrational_sqrt_two, iff_of_true hpos rfl⟩
    | false => exact ⟨-√2, irrational_sqrt_two.neg, iff_of_false (by linarith) Bool.false_ne_true⟩

theorem periodPositive_of_init {p : Params} {b : BootConfig} (h : PeriodPositive (State.init p b)) :
    periodPositive b.tickPeriod = true := by
  obtain ⟨r, hr⟩ := exists_real_named b.tickPeriod
  exact (periodPositive_iff hr).mpr (h r hr)

/-- The machine after steps 1 and 2 of the boot: everything is constructed and nothing registered. -/
def State.constructed (p : Params) (b : BootConfig) : State :=
  { State.blank p with
    clockExists := true
    clock := (Clock.constructed b.tickPeriod).subscribe .tick .pitTick
    rams := mapRams b.deviceMap
    roms := mapRoms b.deviceMap
    pitExists := true
    pit := Pit.zero }

theorem performAll_constructOps (p : Params) {b : BootConfig} (hpos : periodPositive b.tickPeriod = true) :
    performAll (constructOps b) (State.blank p) = .next ((State.constructed p b).returning .ok) := by
  obtain ⟨hneg, -⟩ | ⟨-, hold, -⟩ | ⟨-, -, hclk⟩ := execClkConstruct_cases b.tickPeriod (State.blank p)
  · cases hpos.symm.trans hneg
  · cases hold
  · exact performAll_append ((performAll_cons (i := .clkConstruct b.tickPeriod) hclk rfl).trans (performAll_deviceOps b.deviceMap _)) rfl

/-- Settles O38: the steps of the boot one after another, each from the state that the one before leaves. -/
theorem bootSequenceReachesInitialState : Obligations.BootSequenceReachesInitialState := by
  intro p b hdisj hpos
  have hconstruct := performAll_constructOps p (periodPositive_of_init hpos)
  have hregister := performAll_register (mapBus p 0 0 b.deviceMap) (State.constructed p b)
    (mapBus_deviceEntry (s := State.constructed p b) rfl b.deviceMap [] [] rfl rfl) hdisj
  rw [← registerOps_eq] at hregister
  have hregistered := (performAll_append hconstruct rfl).trans hregister
  have hsubscribed := (performAll_append hregistered rfl).trans (performAll_subscribe b.listeners _)
  have hgated := (performAll_append hsubscribed rfl).trans (performAll_gates b.gates (fun _ => false) _ rfl)
  exact performAll_append hgated rfl

end Sys2Proof.Machine
end
